-- ==== Sys2Proof/Word.lean ====
section
/-!
DEFINITION. The machine's words: the byte of a frame and the 48-bit local time (LT) of R1.
Everything else the manual counts (lengths, indexes, ratios) is a natural number or an integer.
-/

namespace Sys2Proof

/-- One byte of a command frame, a response frame or an event record. -/
abbrev Byte := BitVec 8

/-- A local time: a count of 24 MHz ticks, 48 bits wide, taken modulo 2^48 (R1). -/
abbrev LocalTime := BitVec 48

end Sys2Proof
end

