-- ==== Sys2Proof/Config.lean ====
section
/-!
DEFINITION. What the manual leaves open and the model leaves free: opaque constants with no body, so that no proof
can rest on a value of them (notes/assumptions/10, 11, 12), and the bound on one step's cascade of arbitrations
(notes/assumptions/7).
-/

namespace Sys2Proof

/-- Whether a flag byte other than 0 and 1 counts as set. R179 gives a flag one byte and states no more. -/
opaque Config.oddFlag : Nat → Bool

/-- A value the manual does not state where the machine goes on; applied to the counter `State.free`. -/
opaque Config.freeWord : Nat → BitVec 16

/-- The most tasks one cascade may take. Far above what the nine cycles of R9 let any table set off. -/
def Config.cascadeLimit : Nat := 4294967296

end Sys2Proof
end

