-- ==== Sys2Proof/Syntax.lean ====
section
/-!
DEFINITION. The commands: one constructor of `Instr` per row of spec/opcode_table.json, with the operands the
row's rule gives it. Numbers are kept as they travel in the frame, before any range check, so that every refusal
of the manual can be reached.
-/

namespace Sys2Proof

/-- A subscription. -/
inductive Owner where
  | a
  | b
  deriving DecidableEq, Repr

/-- One of the three serial ports (chapter 10). -/
inductive Port where
  | subA
  | subB
  | policy
  deriving DecidableEq, Repr

/-- A cell time f:s.o as a command carries it; `CellTime.valid` of Machine/Timebase.lean is the range of R5. -/
structure CellTime where
  frame : Nat
  slot : Nat
  offset : Nat
  deriving DecidableEq, Repr

/-- Status codes of the response frame (the table of section 10.3). -/
inductive Status where
  | ok
  | badCommand
  | wrongPort
  | badParam
  | duplicate
  | quota
  | tableFull
  | unknown
  | notOwner
  | inUse
  | state
  | notTimed
  | notServing
  | noCapture
  | late
  | badPolicy
  | callActive
  | span
  | noRoom
  | hoPending
  | noHo
  | busyCal
  deriving DecidableEq, Repr

/-- Parameters of TIME CELL (R26). -/
structure TimeCellParams where
  index : Nat
  time : CellTime
  drift : Int
  advance : Nat
  source : Nat
  lt : Nat
  deriving DecidableEq, Repr

/-- Parameters of RESERVE (section 3.3). `binding` is a cell index, or 255 for follows-serving (R179). -/
structure ReserveParams where
  kind : Nat
  binding : Nat
  start : CellTime
  length : Nat
  level : Nat
  period : Nat
  count : Nat
  mask : Nat
  slack : Nat
  resumable : Nat
  profile : Nat
  deriving DecidableEq, Repr

/-- Parameters of AMEND (R51). Bit i of `selection` selects the i-th field of level, slack, profile, mask, remaining. -/
structure AmendParams where
  handle : Nat
  selection : Nat
  level : Nat
  slack : Nat
  profile : Nat
  mask : Nat
  remaining : Nat
  unlimited : Nat
  deriving DecidableEq, Repr

/-- Parameters of CALL START (R102); the stored call keeps them with the threshold K as selected (R104). -/
structure CallParams where
  rxStart : CellTime
  rxLength : Nat
  txDelay : Nat
  txLength : Nat
  period : Nat
  level : Nat
  allowance : Nat
  threshold : Nat
  rxProfile : Nat
  txProfile : Nat
  deriving DecidableEq, Repr

/-- One step of an EXCHANGE SUBMIT as sent (section 7.2). -/
structure StepParams where
  direction : Nat
  offset : Nat
  length : Nat
  profile : Nat
  deriving DecidableEq, Repr

/-- Parameters of EXCHANGE SUBMIT (section 7.2); `count` is the step count n, `steps` the steps that follow it. -/
structure ExchangeParams where
  earliest : CellTime
  latest : CellTime
  level : Nat
  count : Nat
  steps : List StepParams
  deriving DecidableEq, Repr

/-- The eight sleep parameters, in the order of the table of R166. -/
structure SleepParams where
  lead : Nat
  warmUp : Nat
  spanMin : Nat
  spanMax : Nat
  uncertainty : Nat
  exponent : Nat
  shift : Nat
  autoInterval : Nat
  deriving DecidableEq, Repr

/-- The commands of the block: one constructor per row of spec/opcode_table.json, in the table's order. -/
inductive Instr where
  /-- The supplies rise and release power-on reset (R2). -/
  | powerOnReset
  /-- RESET_N falls (R189). -/
  | chipReset
  /-- RESET_N rises (R189). -/
  | resetNRelease
  /-- A port's CS_N falls (R176). -/
  | csNFall (p : Port)
  /-- A port's CS_N rises after the given SDI bits, first received first (R176, R177). -/
  | csNRise (p : Port) (bits : List Bool)
  /-- A strobe of a subscription port is recognised (R12). -/
  | strobe (o : Owner)
  | readTime (p : Port)
  | releaseCapture (p : Port)
  | addCell (p : Port) (channel code : Nat)
  | removeCell (p : Port) (index : Nat)
  | readCell (p : Port) (index : Nat)
  | setServing (p : Port) (index : Nat)
  | clearServing (p : Port)
  | timeCell (p : Port) (a : TimeCellParams)
  | measureReport (p : Port) (pairs : List (Nat × Int))
  | setTrigger (p : Port) (hysteresis trigger : Nat)
  | reserve (p : Port) (a : ReserveParams)
  | amend (p : Port) (a : AmendParams)
  | cancel (p : Port) (handle : Nat)
  | readReservation (p : Port) (handle : Nat)
  | setPolicy (p : Port) (t1 t2 t3 guard : Nat)
  | readPolicy (p : Port)
  | readTimeline (p : Port) (position : Nat)
  | setProfile (p : Port) (index band channel gain antenna : Nat)
  | endWindow (p : Port) (handle : Nat)
  | callStart (p : Port) (a : CallParams)
  | callEnd (p : Port)
  /-- `which` is the owner byte of the POLICY form; the SUB form has none (R117). -/
  | readCall (p : Port) (which : Option Nat)
  | exchangeSubmit (p : Port) (a : ExchangeParams)
  | exchangeCancel (p : Port) (index : Nat)
  | readExchange (p : Port) (index : Nat)
  | handover (p : Port) (target : Nat) (time : CellTime)
  | handoverCancel (p : Port)
  | handoverRevert (p : Port) (time : CellTime)
  /-- `which` is the owner byte of the POLICY form; the SUB form has none (R136). -/
  | readHandover (p : Port) (which : Option Nat)
  | vote (p : Port) (value : Nat)
  | setSleep (p : Port) (a : SleepParams)
  | readSleep (p : Port)
  | calibrate (p : Port)
  | fetchEvents (p : Port)
  | enablePort (p : Port) (which : Nat)
  | disablePort (p : Port) (which : Nat)
  | resetPort (p : Port)
  | resetChip (p : Port)
  /-- LT reaches the anchor expiry of a cell entry (R30). -/
  | anchorExpiry (index : Nat)
  /-- LT reaches the Ts of an owner's pending HANDOVER (R145). -/
  | handoverSwitch (o : Owner)
  /-- LT reaches the Ts of an owner's pending REVERT (R151). -/
  | revertSwitch (o : Owner)
  /-- LT reaches the close LT of an owner's revert window (R150). -/
  | revertClose (o : Owner)
  /-- The notice instant of a record's window is reached (R97). -/
  | windowSoon (handle : Nat)
  | loadBegin
  | loadComplete
  | activation
  | partEnd
  | cutTime
  | sleepEntry
  | entryEdge
  | oscillatorWarmUp
  | timerWake
  | commandWake
  | gateOpen
  | gateClose
  | refInTick
  | slkInEdge
  deriving DecidableEq, Repr

end Sys2Proof
end

