-- ==== Sys2Proof/WellFormed.lean ====
section
/-!
DEFINITION. When a command is one that a frame can carry: its port is one the command index lists, and every operand
fits the field that carries it (R179, the index of section 10.3). Steps that are no frame name an existing entry or
handle. Range checks that the manual answers with a status are NOT made here.
-/

namespace Sys2Proof

/-- `n` fits in `w` bytes. -/
def fitsBytes (w n : Nat) : Bool := decide (n < 256 ^ w)

/-- `i` fits in `w` bytes of two's complement. -/
def fitsSigned (w : Nat) (i : Int) : Bool :=
  decide (-((256 : Int) ^ w / 2) ≤ i) && decide (i < (256 : Int) ^ w / 2)

/-- The port is a subscription port. -/
def Port.isSub : Port → Bool
  | .subA => true
  | .subB => true
  | .policy => false

/-- A cell time fits its five bytes: frame in two, slot in one, offset in two (R179). -/
def CellTime.fits (t : CellTime) : Bool :=
  fitsBytes 2 t.frame && fitsBytes 1 t.slot && fitsBytes 2 t.offset

def TimeCellParams.fits (a : TimeCellParams) : Bool :=
  fitsBytes 1 a.index && a.time.fits && fitsSigned 4 a.drift && fitsBytes 2 a.advance && fitsBytes 1 a.source
    && fitsBytes 6 a.lt

def ReserveParams.fits (a : ReserveParams) : Bool :=
  fitsBytes 1 a.kind && fitsBytes 1 a.binding && a.start.fits && fitsBytes 3 a.length && fitsBytes 1 a.level
    && fitsBytes 2 a.period && fitsBytes 2 a.count && fitsBytes 2 a.mask && fitsBytes 2 a.slack
    && fitsBytes 1 a.resumable && fitsBytes 1 a.profile

def AmendParams.fits (a : AmendParams) : Bool :=
  fitsBytes 1 a.handle && fitsBytes 1 a.selection && fitsBytes 1 a.level && fitsBytes 2 a.slack
    && fitsBytes 1 a.profile && fitsBytes 2 a.mask && fitsBytes 2 a.remaining && fitsBytes 1 a.unlimited

def CallParams.fits (a : CallParams) : Bool :=
  a.rxStart.fits && fitsBytes 3 a.rxLength && fitsBytes 3 a.txDelay && fitsBytes 3 a.txLength && fitsBytes 1 a.period
    && fitsBytes 1 a.level && fitsBytes 1 a.allowance && fitsBytes 1 a.threshold && fitsBytes 1 a.rxProfile
    && fitsBytes 1 a.txProfile

def StepParams.fits (a : StepParams) : Bool :=
  fitsBytes 1 a.direction && fitsBytes 3 a.offset && fitsBytes 3 a.length && fitsBytes 1 a.profile

/-- The step count names the steps present, 1..8 of them (the length column 12 + 8 × steps, 20..76). -/
def ExchangeParams.fits (a : ExchangeParams) : Bool :=
  a.earliest.fits && a.latest.fits && fitsBytes 1 a.level && a.count == a.steps.length
    && decide (1 ≤ a.count) && decide (a.count ≤ 8) && a.steps.all StepParams.fits

def SleepParams.fits (a : SleepParams) : Bool :=
  fitsBytes 3 a.lead && fitsBytes 1 a.warmUp && fitsBytes 2 a.spanMin && fitsBytes 3 a.spanMax
    && fitsBytes 2 a.uncertainty && fitsBytes 1 a.exponent && fitsBytes 1 a.shift && fitsBytes 1 a.autoInterval

/-- The owner byte of READ CALL and READ HANDOVER: absent on a SUB port, one byte on POLICY. -/
def ownerByteFits (p : Port) : Option Nat → Bool
  | none => p.isSub
  | some w => !p.isSub && fitsBytes 1 w

/-- The command can be carried by a frame of its port, or, for a step that is no frame, names something that exists. -/
def Instr.wellFormed : Instr → Bool
  | .powerOnReset => true
  | .chipReset => true
  | .resetNRelease => true
  | .csNFall _ => true
  | .csNRise _ _ => true
  | .strobe _ => true
  | .readTime _ => true
  | .releaseCapture p => p.isSub
  | .addCell p channel code => p.isSub && fitsBytes 2 channel && fitsBytes 2 code
  | .removeCell p index => p.isSub && fitsBytes 1 index
  | .readCell p index => p.isSub && fitsBytes 1 index
  | .setServing p index => p.isSub && fitsBytes 1 index
  | .clearServing p => p.isSub
  | .timeCell p a => p.isSub && a.fits
  | .measureReport p pairs =>
      p.isSub && decide (1 ≤ pairs.length) && decide (pairs.length ≤ 8)
        && pairs.all (fun x => fitsBytes 1 x.1 && fitsSigned 2 x.2)
  | .setTrigger p hysteresis trigger => p.isSub && fitsBytes 1 hysteresis && fitsBytes 1 trigger
  | .reserve p a => p.isSub && a.fits
  | .amend p a => p.isSub && a.fits
  | .cancel p handle => p.isSub && fitsBytes 1 handle
  | .readReservation p handle => p.isSub && fitsBytes 1 handle
  | .setPolicy p t1 t2 t3 guard =>
      !p.isSub && fitsBytes 1 t1 && fitsBytes 1 t2 && fitsBytes 1 t3 && fitsBytes 2 guard
  | .readPolicy _ => true
  | .readTimeline _ position => fitsBytes 1 position
  | .setProfile p index band channel gain antenna =>
      p.isSub && fitsBytes 1 index && fitsBytes 1 band && fitsBytes 2 channel && fitsBytes 1 gain
        && fitsBytes 1 antenna
  | .endWindow p handle => p.isSub && fitsBytes 1 handle
  | .callStart p a => p.isSub && a.fits
  | .callEnd p => p.isSub
  | .readCall p which => ownerByteFits p which
  | .exchangeSubmit p a => p.isSub && a.fits
  | .exchangeCancel p index => p.isSub && fitsBytes 1 index
  | .readExchange p index => p.isSub && fitsBytes 1 index
  | .handover p target time => p.isSub && fitsBytes 1 target && time.fits
  | .handoverCancel p => p.isSub
  | .handoverRevert p time => p.isSub && time.fits
  | .readHandover p which => ownerByteFits p which
  | .vote _ value => fitsBytes 1 value
  | .setSleep p a => !p.isSub && a.fits
  | .readSleep _ => true
  | .calibrate p => !p.isSub
  | .fetchEvents _ => true
  | .enablePort p which => !p.isSub && fitsBytes 1 which
  | .disablePort p which => !p.isSub && fitsBytes 1 which
  | .resetPort p => p.isSub
  | .resetChip p => !p.isSub
  | .anchorExpiry index => decide (index < 24)
  | .handoverSwitch _ => true
  | .revertSwitch _ => true
  | .revertClose _ => true
  | .windowSoon handle => decide (handle < 64)
  | .loadBegin => true
  | .loadComplete => true
  | .activation => true
  | .partEnd => true
  | .cutTime => true
  | .sleepEntry => true
  | .entryEdge => true
  | .oscillatorWarmUp => true
  | .timerWake => true
  | .commandWake => true
  | .gateOpen => true
  | .gateClose => true
  | .refInTick => true
  | .slkInEdge => true

end Sys2Proof
end

