-- ==== Sys2Proof/Decode.lean ====
section
/-!
DEFINITION. The decoder of the block: how PI reads a command frame (R177, R179 and the command index of section 10.3).
`parseFrame` makes PI's three checks in their order and reads the parameters; `frameOf` writes the frame of a command
from the same field coding. The opcode table gives no row any bits, so `decodeTableWord` reads none.
-/

namespace Sys2Proof

/-- The number that big-endian bytes spell: each field is sent most significant byte first (R179). -/
def natOfBytes (bs : List Byte) : Nat :=
  bs.foldl (fun n b => n * 256 + b.toNat) 0

/-- `n` as `w` bytes, most significant first (R179). -/
def bytesOfNat : Nat → Nat → List Byte
  | 0, _ => []
  | w + 1, n => BitVec.ofNat 8 (n / 256 ^ w) :: bytesOfNat w n

/-- The two's complement value of `w` bytes read as `n` (R179). -/
def signedOfNat (w n : Nat) : Int :=
  if 2 * n < 256 ^ w then (n : Int) else (n : Int) - (256 : Int) ^ w

/-- `i` as `w` bytes of two's complement, most significant first (R179). -/
def bytesOfInt (w : Nat) (i : Int) : List Byte :=
  bytesOfNat w (i % (256 : Int) ^ w).toNat

/-- Whole bytes of a transaction's bits, most significant bit of each byte first (section 4 of the scope, R176). -/
def bytesOfBits : List Bool → List Byte
  | b7 :: b6 :: b5 :: b4 :: b3 :: b2 :: b1 :: b0 :: rest =>
      BitVec.ofNat 8 (b7.toNat * 128 + b6.toNat * 64 + b5.toNat * 32 + b4.toNat * 16 + b3.toNat * 8 + b2.toNat * 4
        + b1.toNat * 2 + b0.toNat) :: bytesOfBits rest
  | _ => []

/-- The bits of bytes as they travel, most significant bit of each byte first. -/
def bitsOfBytes : List Byte → List Bool
  | [] => []
  | b :: rest =>
      [b.getLsbD 7, b.getLsbD 6, b.getLsbD 5, b.getLsbD 4, b.getLsbD 3, b.getLsbD 2, b.getLsbD 1, b.getLsbD 0]
        ++ bitsOfBytes rest

/-- The field of `w` bytes that starts at byte `at'` of the parameters. -/
def field (ps : List Byte) (at' w : Nat) : Nat := natOfBytes ((ps.drop at').take w)

/-- A signed field. -/
def signedField (ps : List Byte) (at' w : Nat) : Int := signedOfNat w (field ps at' w)

/-- A cell time: frame in two bytes, slot in one, offset in two (R179). -/
def timeField (ps : List Byte) (at' : Nat) : CellTime :=
  ⟨field ps at' 2, field ps (at' + 2) 1, field ps (at' + 3) 2⟩

def bytesOfTime (t : CellTime) : List Byte :=
  bytesOfNat 2 t.frame ++ bytesOfNat 1 t.slot ++ bytesOfNat 2 t.offset

/-- The ports column of the command index; `true` where the command is accepted on `p` (section 10.3). -/
def listedOn (number : Nat) (p : Port) : Bool :=
  match number with
  | 1 | 16 | 17 | 22 | 29 | 30 | 32 | 34 => true
  | 15 | 31 | 33 | 35 | 36 | 38 => !p.isSub
  | _ => p.isSub

/-- The length column of the command index, with PI's own test of an EXCHANGE SUBMIT's step count (section 10.3). -/
def lengthAccepted (number : Nat) (p : Port) (ps : List Byte) : Bool :=
  let n := ps.length
  match number with
  | 3 => n == 4
  | 4 | 5 | 6 | 13 | 14 | 17 | 19 | 24 | 25 | 30 | 35 | 36 => n == 1
  | 8 => n == 19
  | 9 => decide (3 ≤ n) && decide (n ≤ 24) && n % 3 == 0
  | 10 => n == 2
  | 11 => n == 21
  | 12 => n == 11
  | 15 => n == 5
  | 18 => n == 6
  | 20 => n == 20
  | 22 | 29 => n == if p.isSub then 0 else 1
  | 23 => decide (20 ≤ n) && decide (n ≤ 76) && n == 12 + 8 * field ps 11 1
  | 26 => n == 6
  | 28 => n == 5
  | 31 => n == 14
  | _ => n == 0

/-- The pairs of a MEASURE REPORT: an index byte and a signed level of two bytes each (R32). -/
def pairsOf : List Byte → List (Nat × Int)
  | i :: l1 :: l0 :: rest => (i.toNat, signedOfNat 2 (natOfBytes [l1, l0])) :: pairsOf rest
  | _ => []

/-- The steps of an EXCHANGE SUBMIT: direction, offset, length and profile in eight bytes each (section 7.2). -/
def stepsOf : List Byte → List StepParams
  | d :: o2 :: o1 :: o0 :: l2 :: l1 :: l0 :: f :: rest =>
      ⟨d.toNat, natOfBytes [o2, o1, o0], natOfBytes [l2, l1, l0], f.toNat⟩ :: stepsOf rest
  | _ => []

def timeCellOf (ps : List Byte) : TimeCellParams :=
  ⟨field ps 0 1, timeField ps 1, signedField ps 6 4, field ps 10 2, field ps 12 1, field ps 13 6⟩

def reserveOf (ps : List Byte) : ReserveParams :=
  ⟨field ps 0 1, field ps 1 1, timeField ps 2, field ps 7 3, field ps 10 1, field ps 11 2, field ps 13 2,
    field ps 15 2, field ps 17 2, field ps 19 1, field ps 20 1⟩

def amendOf (ps : List Byte) : AmendParams :=
  ⟨field ps 0 1, field ps 1 1, field ps 2 1, field ps 3 2, field ps 5 1, field ps 6 2, field ps 8 2, field ps 10 1⟩

def callOf (ps : List Byte) : CallParams :=
  ⟨timeField ps 0, field ps 5 3, field ps 8 3, field ps 11 3, field ps 14 1, field ps 15 1, field ps 16 1,
    field ps 17 1, field ps 18 1, field ps 19 1⟩

def exchangeOf (ps : List Byte) : ExchangeParams :=
  ⟨timeField ps 0, timeField ps 5, field ps 10 1, field ps 11 1, stepsOf (ps.drop 12)⟩

def sleepOf (ps : List Byte) : SleepParams :=
  ⟨field ps 0 3, field ps 3 1, field ps 4 2, field ps 6 3, field ps 9 2, field ps 11 1, field ps 12 1, field ps 13 1⟩

/-- The command that number and parameters name, once PI's checks have passed (the index of section 10.3). -/
def commandOf (p : Port) (number : Nat) (ps : List Byte) : Option Instr :=
  match number with
  | 1 => some (.readTime p)
  | 2 => some (.releaseCapture p)
  | 3 => some (.addCell p (field ps 0 2) (field ps 2 2))
  | 4 => some (.removeCell p (field ps 0 1))
  | 5 => some (.readCell p (field ps 0 1))
  | 6 => some (.setServing p (field ps 0 1))
  | 7 => some (.clearServing p)
  | 8 => some (.timeCell p (timeCellOf ps))
  | 9 => some (.measureReport p (pairsOf ps))
  | 10 => some (.setTrigger p (field ps 0 1) (field ps 1 1))
  | 11 => some (.reserve p (reserveOf ps))
  | 12 => some (.amend p (amendOf ps))
  | 13 => some (.cancel p (field ps 0 1))
  | 14 => some (.readReservation p (field ps 0 1))
  | 15 => some (.setPolicy p (field ps 0 1) (field ps 1 1) (field ps 2 1) (field ps 3 2))
  | 16 => some (.readPolicy p)
  | 17 => some (.readTimeline p (field ps 0 1))
  | 18 => some (.setProfile p (field ps 0 1) (field ps 1 1) (field ps 2 2) (field ps 4 1) (field ps 5 1))
  | 19 => some (.endWindow p (field ps 0 1))
  | 20 => some (.callStart p (callOf ps))
  | 21 => some (.callEnd p)
  | 22 => some (.readCall p (if p.isSub then none else some (field ps 0 1)))
  | 23 => some (.exchangeSubmit p (exchangeOf ps))
  | 24 => some (.exchangeCancel p (field ps 0 1))
  | 25 => some (.readExchange p (field ps 0 1))
  | 26 => some (.handover p (field ps 0 1) (timeField ps 1))
  | 27 => some (.handoverCancel p)
  | 28 => some (.handoverRevert p (timeField ps 0))
  | 29 => some (.readHandover p (if p.isSub then none else some (field ps 0 1)))
  | 30 => some (.vote p (field ps 0 1))
  | 31 => some (.setSleep p (sleepOf ps))
  | 32 => some (.readSleep p)
  | 33 => some (.calibrate p)
  | 34 => some (.fetchEvents p)
  | 35 => some (.enablePort p (field ps 0 1))
  | 36 => some (.disablePort p (field ps 0 1))
  | 37 => some (.resetPort p)
  | 38 => some (.resetChip p)
  | _ => none

/-- What PI makes of a command frame: the command it names, or the status that refuses it (R179). -/
inductive Parsed where
  | command (i : Instr)
  | refused (st : Status)
  deriving DecidableEq, Repr

/-- PI's checks of a command frame, in the order of R179. -/
def parseFrame (p : Port) (number : Nat) (ps : List Byte) : Parsed :=
  if 38 < number then .refused .badCommand
  else if listedOn number p then
    if lengthAccepted number p ps then
      match commandOf p number ps with
      | some i => .command i
      | none => .refused .badCommand
    else .refused .badParam
  else .refused .wrongPort

/-- The port and command number of a command; none for a step that is no frame. -/
def Instr.command? : Instr → Option (Port × Nat)
  | .readTime p => some (p, 1)
  | .releaseCapture p => some (p, 2)
  | .addCell p _ _ => some (p, 3)
  | .removeCell p _ => some (p, 4)
  | .readCell p _ => some (p, 5)
  | .setServing p _ => some (p, 6)
  | .clearServing p => some (p, 7)
  | .timeCell p _ => some (p, 8)
  | .measureReport p _ => some (p, 9)
  | .setTrigger p _ _ => some (p, 10)
  | .reserve p _ => some (p, 11)
  | .amend p _ => some (p, 12)
  | .cancel p _ => some (p, 13)
  | .readReservation p _ => some (p, 14)
  | .setPolicy p _ _ _ _ => some (p, 15)
  | .readPolicy p => some (p, 16)
  | .readTimeline p _ => some (p, 17)
  | .setProfile p _ _ _ _ _ => some (p, 18)
  | .endWindow p _ => some (p, 19)
  | .callStart p _ => some (p, 20)
  | .callEnd p => some (p, 21)
  | .readCall p _ => some (p, 22)
  | .exchangeSubmit p _ => some (p, 23)
  | .exchangeCancel p _ => some (p, 24)
  | .readExchange p _ => some (p, 25)
  | .handover p _ _ => some (p, 26)
  | .handoverCancel p => some (p, 27)
  | .handoverRevert p _ => some (p, 28)
  | .readHandover p _ => some (p, 29)
  | .vote p _ => some (p, 30)
  | .setSleep p _ => some (p, 31)
  | .readSleep p => some (p, 32)
  | .calibrate p => some (p, 33)
  | .fetchEvents p => some (p, 34)
  | .enablePort p _ => some (p, 35)
  | .disablePort p _ => some (p, 36)
  | .resetPort p => some (p, 37)
  | .resetChip p => some (p, 38)
  | _ => none

/-- The parameter bytes of a command, in the order its rule names the fields (R179). -/
def paramsOf : Instr → List Byte
  | .addCell _ channel code => bytesOfNat 2 channel ++ bytesOfNat 2 code
  | .removeCell _ index => bytesOfNat 1 index
  | .readCell _ index => bytesOfNat 1 index
  | .setServing _ index => bytesOfNat 1 index
  | .timeCell _ a =>
      bytesOfNat 1 a.index ++ bytesOfTime a.time ++ bytesOfInt 4 a.drift ++ bytesOfNat 2 a.advance
        ++ bytesOfNat 1 a.source ++ bytesOfNat 6 a.lt
  | .measureReport _ pairs => pairs.flatMap (fun x => bytesOfNat 1 x.1 ++ bytesOfInt 2 x.2)
  | .setTrigger _ hysteresis trigger => bytesOfNat 1 hysteresis ++ bytesOfNat 1 trigger
  | .reserve _ a =>
      bytesOfNat 1 a.kind ++ bytesOfNat 1 a.binding ++ bytesOfTime a.start ++ bytesOfNat 3 a.length
        ++ bytesOfNat 1 a.level ++ bytesOfNat 2 a.period ++ bytesOfNat 2 a.count ++ bytesOfNat 2 a.mask
        ++ bytesOfNat 2 a.slack ++ bytesOfNat 1 a.resumable ++ bytesOfNat 1 a.profile
  | .amend _ a =>
      bytesOfNat 1 a.handle ++ bytesOfNat 1 a.selection ++ bytesOfNat 1 a.level ++ bytesOfNat 2 a.slack
        ++ bytesOfNat 1 a.profile ++ bytesOfNat 2 a.mask ++ bytesOfNat 2 a.remaining ++ bytesOfNat 1 a.unlimited
  | .cancel _ handle => bytesOfNat 1 handle
  | .readReservation _ handle => bytesOfNat 1 handle
  | .setPolicy _ t1 t2 t3 guard => bytesOfNat 1 t1 ++ bytesOfNat 1 t2 ++ bytesOfNat 1 t3 ++ bytesOfNat 2 guard
  | .readTimeline _ position => bytesOfNat 1 position
  | .setProfile _ index band channel gain antenna =>
      bytesOfNat 1 index ++ bytesOfNat 1 band ++ bytesOfNat 2 channel ++ bytesOfNat 1 gain ++ bytesOfNat 1 antenna
  | .endWindow _ handle => bytesOfNat 1 handle
  | .callStart _ a =>
      bytesOfTime a.rxStart ++ bytesOfNat 3 a.rxLength ++ bytesOfNat 3 a.txDelay ++ bytesOfNat 3 a.txLength
        ++ bytesOfNat 1 a.period ++ bytesOfNat 1 a.level ++ bytesOfNat 1 a.allowance ++ bytesOfNat 1 a.threshold
        ++ bytesOfNat 1 a.rxProfile ++ bytesOfNat 1 a.txProfile
  | .readCall _ which => which.elim [] (bytesOfNat 1)
  | .exchangeSubmit _ a =>
      bytesOfTime a.earliest ++ bytesOfTime a.latest ++ bytesOfNat 1 a.level ++ bytesOfNat 1 a.count
        ++ a.steps.flatMap (fun x =>
          bytesOfNat 1 x.direction ++ bytesOfNat 3 x.offset ++ bytesOfNat 3 x.length ++ bytesOfNat 1 x.profile)
  | .exchangeCancel _ index => bytesOfNat 1 index
  | .readExchange _ index => bytesOfNat 1 index
  | .handover _ target time => bytesOfNat 1 target ++ bytesOfTime time
  | .handoverRevert _ time => bytesOfTime time
  | .readHandover _ which => which.elim [] (bytesOfNat 1)
  | .vote _ value => bytesOfNat 1 value
  | .setSleep _ a =>
      bytesOfNat 3 a.lead ++ bytesOfNat 1 a.warmUp ++ bytesOfNat 2 a.spanMin ++ bytesOfNat 3 a.spanMax
        ++ bytesOfNat 2 a.uncertainty ++ bytesOfNat 1 a.exponent ++ bytesOfNat 1 a.shift ++ bytesOfNat 1 a.autoInterval
  | .enablePort _ which => bytesOfNat 1 which
  | .disablePort _ which => bytesOfNat 1 which
  | _ => []

/-- The frame of a command: its number, the parameter length, the parameters (R177, R179). -/
def frameOf (i : Instr) : List Byte :=
  match i.command? with
  | some (_, number) => bytesOfNat 1 number ++ bytesOfNat 1 (paramsOf i).length ++ paramsOf i
  | none => []

/-- The opcode table gives no row any bits (every row's "fields" is empty), so no word spells a command. -/
def decodeTableWord (_nbits _w : Nat) : Option Instr := none

end Sys2Proof
end

