-- ==== Sys2Proof/Machine/State.lean ====
section
/-!
DEFINITION. Everything the manual lets the part hold, as plain data, one structure per block of section 1.2, and the
state after power-on reset. A field's docstring names the rule that gives it. Views that the manual also names but
that follow from these fields (the timeline as a list, an anchor's expiry LT, ATTN, the link and SDO pins) are
computed in Machine/Ops.lean, Machine/Windows.lean and Machine/Ports.lean (notes/assumptions/6).
-/

namespace Sys2Proof.Machine

/-- One value for each owner. -/
structure PerOwner (α : Type) where
  a : α
  b : α
  deriving DecidableEq, Repr

/-- One value for each port. -/
structure PerPort (α : Type) where
  subA : α
  subB : α
  policy : α
  deriving DecidableEq, Repr

/-! ### Timebase, TB -/

/-- A capture slot (section 1.5): EMPTY when `present` is false, HELD when true. -/
structure Capture where
  present : Bool
  lt : LocalTime
  overrun : Bool
  deriving DecidableEq, Repr

/-- Gate state of a running calibration (R172). -/
inductive Gate where
  | waitingEdge
  | counting
  deriving DecidableEq, Repr

/-- A calibration in progress: its n, gate, slow edges counted, fast count C and start cause (section 9.4). -/
structure CalRun where
  exponent : Nat
  gate : Gate
  edges : Nat
  count : Nat
  auto : Bool
  deriving DecidableEq, Repr

inductive CalOutcome where
  | none
  | done
  | rejected
  | aborted
  deriving DecidableEq, Repr

/-- The last calibration record (R169). -/
structure CalRecord where
  outcome : CalOutcome
  exponent : Nat
  count : Nat
  measured : Nat
  ppm : Int
  lt : LocalTime
  auto : Bool
  deriving DecidableEq, Repr

structure Timebase where
  /-- LT (R1). -/
  lt : LocalTime
  /-- The capture slot of each subscription port (R12). -/
  captures : PerOwner Capture
  /-- The ratio Q, Q16 fast ticks per slow period (R169). -/
  ratio : Nat
  /-- No calibration accepted since power-on (R169). -/
  uncalibrated : Bool
  /-- The residue, in units of 1/65,536 tick (R161). -/
  residue : Nat
  /-- The calibration run; none is IDLE (R170). -/
  run : Option CalRun
  lastCal : CalRecord
  deriving DecidableEq, Repr

/-! ### Cell Table, CT -/

/-- An anchor; its expiry LT is `Anchor.expiry` (section 2.1, R27). -/
structure Anchor where
  lt : LocalTime
  frame : Nat
  drift : Int
  clamped : Bool
  deriving DecidableEq, Repr

/-- The states of an entry that is not FREE (R18). -/
inductive CellState where
  | neighbour
  | serving
  | retiring
  deriving DecidableEq, Repr

/-- A cell entry that is not FREE (section 2.1). -/
structure Cell where
  owner : Owner
  state : CellState
  channel : Nat
  code : Nat
  anchor : Option Anchor
  advance : Nat
  level : Option Int
  triggerCount : Nat
  candidate : Bool
  refCount : Nat
  deriving DecidableEq, Repr

/-- An owner's hysteresis H and time-to-trigger N (R36). -/
structure Trigger where
  hysteresis : Nat
  reports : Nat
  deriving DecidableEq, Repr

structure CellTable where
  /-- The 24 entries by index; none is FREE (R18). -/
  cells : Vector (Option Cell) 24
  triggers : PerOwner Trigger
  deriving DecidableEq, Repr

/-! ### Reservation Table, RT -/

/-- The kinds of a record, in the order of section 3.1. -/
inductive Kind where
  | page
  | meas
  | search
  | sigRx
  | sigTx
  | access
  | callRx
  | callTx
  | stepRx
  | stepTx
  deriving DecidableEq, Repr

inductive Binding where
  | byIndex (cell : Nat)
  | followsServing
  deriving DecidableEq, Repr

/-- The session a record belongs to: its owner's call, or an exchange record. -/
inductive Link where
  | call
  | exchange (index : Nat)
  deriving DecidableEq, Repr

/-- States of a current occurrence, in the order of section 3.2. -/
inductive OccState where
  | waiting
  | granted
  | withdrawn
  | active
  | suspended
  deriving DecidableEq, Repr

/-- A current occurrence (section 3.2), with what ARB stores on it at a cut (R78) and the flags and notice WC keeps
for it (sections 5.1, 5.5). `taken` is its index's bit of the mask as generation read it (R46, R52). `cutAt` is present while a cut is scheduled on the ACTIVE part; `firstRise` is the placed
start at which it first became ACTIVE; `deadline` is fixed at the first cut; `notice` is the instant of a
WINDOW_SOON not yet posted. -/
structure Occurrence where
  k : Nat
  state : OccState
  entry : Nat
  nominal : Option LocalTime
  advance : Nat
  placed : LocalTime
  shift : Nat
  remaining : Nat
  served : Nat
  suspensions : Nat
  level : Nat
  slack : Nat
  profile : Nat
  resumable : Bool
  taken : Bool
  firstRise : Option LocalTime
  cutAt : Option LocalTime
  shortfall : Bool
  resumeFloor : Option LocalTime
  deadline : Option LocalTime
  lateLoad : Bool
  widened : Bool
  notice : Option LocalTime
  deriving DecidableEq, Repr

/-- A reservation record (section 3.1). `period` none is one-shot; `count` and `remaining` none are unlimited. -/
structure Record where
  owner : Owner
  kind : Kind
  binding : Binding
  start : CellTime
  length : Nat
  level : Nat
  period : Option Nat
  count : Option Nat
  remaining : Option Nat
  mask : BitVec 16
  slack : Nat
  resumable : Bool
  profile : Nat
  link : Option Link
  served : Nat
  lost : Nat
  occ : Occurrence
  deriving DecidableEq, Repr

structure ReservationTable where
  /-- The 64 records by handle; none is a free handle (R38). -/
  records : Vector (Option Record) 64
  deriving DecidableEq, Repr

/-! ### Timeline Arbiter, ARB -/

structure Arbiter where
  /-- The class thresholds T1, T2, T3 (R65). -/
  t1 : Nat
  t2 : Nat
  t3 : Nat
  /-- The guard G (R65). -/
  guard : Nat
  /-- The turn tokens of classes 0..3 (R68). -/
  tokens : Vector Owner 4
  deriving DecidableEq, Repr

/-! ### Window Controller, WC -/

/-- A front-end profile (R87). -/
structure Profile where
  band : Nat
  channel : Nat
  gain : Nat
  antenna : Nat
  deriving DecidableEq, Repr

inductive LoadState where
  | owed
  | ready
  deriving DecidableEq, Repr

/-- A link word in flight (R89, R90): what it carries, when it began, the window (handle and index) it serves while
that window is in the timeline, the rise of that window's line once it has risen (R89), whether its owner was port reset
meanwhile (R92) and whether its profile was written meanwhile (R91). -/
structure Load where
  owner : Owner
  profile : Nat
  word : BitVec 32
  start : LocalTime
  serves : Option (Nat × Nat)
  rise : Option LocalTime
  orphaned : Bool
  rewritten : Bool
  deriving DecidableEq, Repr

/-- The next window of R86 with its load state (R88) and planned rise (R98), and the placed start, W_pending and G
for which that rise was fixed. -/
structure NextWindow where
  handle : Nat
  k : Nat
  load : LoadState
  rise : LocalTime
  fixedPlaced : LocalTime
  fixedPending : Nat
  fixedGuard : Nat
  deriving DecidableEq, Repr

structure WindowController where
  profiles : PerOwner (Vector Profile 16)
  lastLoaded : Option (Owner × Nat)
  writtenSince : Bool
  load : Option Load
  /-- The sequence value of the next link word (R90). -/
  sequence : Nat
  next : Option NextWindow
  /-- The load state of the ACTIVE window, meaningful while one exists. -/
  activeLoad : LoadState
  lastEnd : Option LocalTime
  /-- W_pending (R98). -/
  pendingWidening : Nat
  /-- The LT of the wake that set W_pending (R98). -/
  wakeLt : LocalTime
  rxEn : Bool
  txEn : Bool
  deriving DecidableEq, Repr

/-! ### Session Unit, SU -/

inductive CallState where
  | running
  | ending
  deriving DecidableEq, Repr

/-- A call session that is not NONE (R101). -/
structure Call where
  state : CallState
  params : CallParams
  rxHandle : Option Nat
  txHandle : Option Nat
  yields : List Nat
  reference : Option Nat
  degradation : Nat
  granted : Nat
  refused : Nat
  deriving DecidableEq, Repr

/-- Why an occurrence is MISSED (R48, R49, R142). -/
inductive MissReason where
  | late
  | untimed
  | switch
  deriving DecidableEq, Repr

/-- The six outcomes of R40; `denied displaced` tells an arrival that lost (R75) from a window displaced (R76). -/
inductive Ending where
  | done
  | cut
  | denied (displaced : Bool)
  | yielded
  | missed (r : MissReason)
  | cancelled
  deriving DecidableEq, Repr

/-- A step of an exchange (section 7.1). -/
structure Step where
  tx : Bool
  offset : Nat
  length : Nat
  profile : Nat
  handle : Option Nat
  ending : Option Ending
  deriving DecidableEq, Repr

inductive ExchangeState where
  | placed
  | running
  deriving DecidableEq, Repr

/-- An exchange record that is not free (section 7.1); COMPLETE and ABANDONED free it at once (R119). -/
structure Exchange where
  owner : Owner
  state : ExchangeState
  earliest : CellTime
  latest : CellTime
  level : Nat
  steps : List Step
  candidate : Nat
  entry : Nat
  done : Nat
  cancelPending : Bool
  deriving DecidableEq, Repr

structure SessionUnit where
  /-- One session per owner; none is NONE (R101). -/
  calls : PerOwner (Option Call)
  exchanges : Vector (Option Exchange) 4
  deriving DecidableEq, Repr

/-! ### Handover Unit, HU -/

inductive HandoverKind where
  | handover
  | revert
  deriving DecidableEq, Repr

/-- A PENDING handover record (section 8.1). -/
structure Handover where
  kind : HandoverKind
  source : Nat
  target : Nat
  time : CellTime
  ts : LocalTime
  clamped : Bool
  deriving DecidableEq, Repr

/-- An OPEN revert window (section 8.1). -/
structure RevertWindow where
  closeLt : LocalTime
  retiring : Nat
  deriving DecidableEq, Repr

structure HandoverUnit where
  /-- The handover record; none is NONE (R135). -/
  records : PerOwner (Option Handover)
  /-- The revert window; none is CLOSED (R135). -/
  windows : PerOwner (Option RevertWindow)
  deriving DecidableEq, Repr

/-! ### Sleep Controller, SC -/

inductive SleepState where
  | awake
  | entering
  | asleep
  | waking
  deriving DecidableEq, Repr

/-- The kind of a wake target, in the order of R158. -/
inductive TargetKind where
  | window
  | anchorExpiry
  | switch
  | revertClose
  | none
  deriving DecidableEq, Repr

/-- The sleep in hand, fixed at the entry edge (R160). -/
structure SleepHand where
  entryLt : LocalTime
  span : Nat
  margin : Nat
  kind : TargetKind
  noTarget : Bool
  clamped : Bool
  warmUp : Nat
  uncertainty : Nat
  ratio : Nat
  uncalibrated : Bool
  deriving DecidableEq, Repr

inductive WakeReason where
  | none
  | timer
  | command
  deriving DecidableEq, Repr

/-- The last sleep record (R167). -/
structure SleepRecord where
  entryLt : LocalTime
  span : Nat
  clamped : Bool
  noTarget : Bool
  kind : TargetKind
  wakeCount : Nat
  advance : Nat
  widening : Nat
  reason : WakeReason
  port : Nat
  deriving DecidableEq, Repr

structure SleepController where
  state : SleepState
  params : SleepParams
  spanShort : Bool
  /-- SLK_IN rising edges since the entry edge (R160). -/
  counter : Nat
  hand : Option SleepHand
  /-- The wake count of an early wake and the port whose frame set it (R163). -/
  early : Option (Nat × Port)
  wakes : Nat
  last : SleepRecord
  /-- The pin REF_EN (R154). -/
  refEn : Bool
  deriving DecidableEq, Repr

/-! ### Port Interface, PI -/

inductive Vote where
  | hold
  | allow
  deriving DecidableEq, Repr

/-- The event kinds, in the order of their numbers 1..23 (section 10.4). -/
inductive EventKind where
  | captured
  | stale
  | candidate
  | missed
  | recordEnded
  | deferred
  | occLost
  | suspended
  | resumed
  | windowSoon
  | windowEnd
  | callDegraded
  | callEnded
  | exchDone
  | exchAbandoned
  | switched
  | hoFailed
  | revertClosed
  | woke
  | calDone
  | calRejected
  | calAborted
  | portReset
  deriving DecidableEq, Repr

/-- The reason byte, in the order of its codes 0..14 (section 10.4). -/
inductive Reason where
  | none
  | done
  | cut
  | denied
  | displaced
  | yielded
  | late
  | untimed
  | missedSwitch
  | straddling
  | cancelled
  | exhausted
  | stale
  | timer
  | command
  deriving DecidableEq, Repr

/-- An event record (R182). -/
structure Event where
  kind : EventKind
  subject : Nat
  reason : Reason
  flags : BitVec 8
  detail : BitVec 16
  time : LocalTime
  deriving DecidableEq, Repr

/-- The response slot (R178). -/
inductive Slot where
  | empty
  | pending (number : Nat)
  | done (number : Nat) (status : Status) (results : List Byte)
  | disabled
  deriving DecidableEq, Repr

/-- The command frame in a port's command buffer, with the sleep state in which it found SC (R17, R179). -/
structure HeldFrame where
  number : Nat
  params : List Byte
  arrival : SleepState
  deriving DecidableEq, Repr

/-- The three sticky flags (R181). -/
structure PortFlags where
  collision : Bool
  frameError : Bool
  overflow : Bool
  deriving DecidableEq, Repr

/-- A transaction in progress: whether it may be judged, the response copy taken at the fall of CS_N, the flags that
copy showed, and whether it was a DONE copy (R176). -/
structure Transaction where
  judged : Bool
  copy : List Byte
  shown : PortFlags
  copyDone : Bool
  deriving DecidableEq, Repr

structure PortState where
  enabled : Bool
  slot : Slot
  buffer : Option HeldFrame
  flags : PortFlags
  /-- An event was dropped after the fall of CS_N of the transaction in progress (R176; notes/assumptions/13). -/
  overflowAnew : Bool
  /-- The event queue, oldest first (R183). -/
  queue : List Event
  overflowCount : Nat
  /-- The vote of R155; none for a disabled port. -/
  vote : Option Vote
  /-- The transaction in progress; present while CS_N is low. -/
  transaction : Option Transaction
  deriving DecidableEq, Repr

/-! ### The machine -/

structure State where
  tb : Timebase
  ct : CellTable
  rt : ReservationTable
  arb : Arbiter
  wc : WindowController
  su : SessionUnit
  hu : HandoverUnit
  sc : SleepController
  pi : PerPort PortState
  /-- The level of the RESET_N pin (R189). -/
  resetN : Bool
  /-- The MODEL's own counter of free values taken so far (notes/assumptions/11, 12). -/
  free : Nat
  /-- The MODEL's own queue of commands that are waiting, first in, first out. -/
  pending : List Instr
  deriving DecidableEq, Repr

/-- Why a step stops. -/
inductive Fault where
  /-- Raised by a meaning whose cascade of arbitrations (R77) exceeds `Config.cascadeLimit` tasks, which no table
  sets off. Safe: the model stops where the hardware would go on. -/
  | cascadeUnfinished
  deriving DecidableEq, Repr

/-- Why a command has no meaning. -/
inductive Refusal where
  /-- Raised by `exec` for a row that is not modelled; no arm uses it. Safe: nothing is claimed of such a row. -/
  | notModelled (mnemonic : String)
  deriving DecidableEq, Repr

/-- Right after power-on reset (R2, R16, R37, R60, R85, R100, R118, R134, R153, R168, R175, R190), with RESET_N and
every CS_N high and no command waiting (notes/assumptions/5). -/
def State.reset : State where
  tb :=
    { lt := 0
      captures := ⟨⟨false, 0, false⟩, ⟨false, 0, false⟩⟩
      ratio := 48000000
      uncalibrated := true
      residue := 0
      run := none
      lastCal := ⟨.none, 0, 0, 0, 0, 0, false⟩ }
  ct := { cells := Vector.replicate 24 none, triggers := ⟨⟨6, 4⟩, ⟨6, 4⟩⟩ }
  rt := { records := Vector.replicate 64 none }
  arb := { t1 := 2, t2 := 6, t3 := 11, guard := 2400, tokens := Vector.replicate 4 .a }
  wc :=
    { profiles := ⟨Vector.replicate 16 ⟨0, 0, 0, 0⟩, Vector.replicate 16 ⟨0, 0, 0, 0⟩⟩
      lastLoaded := none
      writtenSince := false
      load := none
      sequence := 0
      next := none
      activeLoad := .owed
      lastEnd := none
      pendingWidening := 0
      wakeLt := 0
      rxEn := false
      txEn := false }
  su := { calls := ⟨none, none⟩, exchanges := Vector.replicate 4 none }
  hu := { records := ⟨none, none⟩, windows := ⟨none, none⟩ }
  sc :=
    { state := .awake
      params := ⟨24000, 66, 64, 983040, 50, 12, 2, 16⟩
      spanShort := false
      counter := 0
      hand := none
      early := none
      wakes := 0
      last := ⟨0, 0, false, false, .window, 0, 0, 0, .none, 0⟩
      refEn := true }
  pi :=
    { subA := ⟨false, .disabled, none, ⟨false, false, false⟩, false, [], 0, none, none⟩
      subB := ⟨false, .disabled, none, ⟨false, false, false⟩, false, [], 0, none, none⟩
      policy := ⟨true, .empty, none, ⟨false, false, false⟩, false, [], 0, some .hold, none⟩ }
  resetN := true
  free := 0
  pending := []

end Sys2Proof.Machine
end

