-- ==== Sys2Proof/Machine/Ops.lean ====
section
/-!
DEFINITION. The named operations every block works with: the circular order of LT (section 3.1 of the scope), reading
and writing the tables, the derived views (the timeline, an anchor's expiry), and posting an event (R182, R183).
-/

namespace Sys2Proof

/-! ### Owners and ports -/

def Owner.other : Owner → Owner
  | .a => .b
  | .b => .a

def Owner.port : Owner → Port
  | .a => .subA
  | .b => .subB

/-- 0 for A and 1 for B (R84, R111, R117). -/
def Owner.code : Owner → Nat
  | .a => 0
  | .b => 1

/-- The owner of a command of this port; commands from POLICY have none (section 3.4). -/
def Port.owner? : Port → Option Owner
  | .subA => some .a
  | .subB => some .b
  | .policy => none

/-- 0 for SUB-A, 1 for SUB-B and 2 for POLICY (R164). -/
def Port.code : Port → Nat
  | .subA => 0
  | .subB => 1
  | .policy => 2

end Sys2Proof

namespace Sys2Proof.Machine

/-! ### Local time -/

/-- The distance from `a` forward to `b`, modulo 2^48. -/
def ticksTo (a b : LocalTime) : Nat := (b - a).toNat

/-- "a is before b": (b − a) mod 2^48 lies in 1..2^47 − 1 (section 3.1). -/
def before (a b : LocalTime) : Bool := decide (1 ≤ ticksTo a b) && decide (ticksTo a b < 140737488355328)

/-- "at or before" (section 3.1). -/
def atOrBefore (a b : LocalTime) : Bool := a == b || before a b

/-- `a` plus `n` ticks, modulo 2^48. -/
def plus (a : LocalTime) (n : Nat) : LocalTime := a + BitVec.ofNat 48 n

/-- `a` less `n` ticks, modulo 2^48. -/
def less (a : LocalTime) (n : Nat) : LocalTime := a - BitVec.ofNat 48 n

/-- The later of two LT values. -/
def laterOf (a b : LocalTime) : LocalTime := if before a b then b else a

/-- The earlier of two LT values. -/
def earlierOf (a b : LocalTime) : LocalTime := if before b a then b else a

/-- An instant has been reached: LT is at or after it (R3). -/
def State.reached (s : State) (instant : LocalTime) : Bool := atOrBefore instant s.tb.lt

/-- One cycle of 2,048 frames, in ticks (section 3.2). -/
def cycleTicks : Nat := 294912000

/-- The admission lead L_min (section 1.4). -/
def admissionLead : Nat := 1200

/-- The load lead F (R89). -/
def loadLead : Nat := 2400

/-- A load takes 160 ticks (R89). -/
def loadTicks : Nat := 160

/-- The latch tick of a load (R90). -/
def latchTick : Nat := 144

/-- An anchor lasts eight cycles (section 2.1). -/
def anchorLife : Nat := 2359296000

/-- The least distance of a switch time at acceptance (R138). -/
def switchLead : Nat := 24000

/-! ### One value per owner or port -/

/-- The subscription port that a parameter byte names (R186). -/
def ownerOfByte (which : Nat) : Option Owner :=
  match which with
  | 0 => some .a
  | 1 => some .b
  | _ => none

def PerOwner.get {α : Type} (x : PerOwner α) : Owner → α
  | .a => x.a
  | .b => x.b

def PerOwner.set {α : Type} (x : PerOwner α) (o : Owner) (v : α) : PerOwner α :=
  match o with
  | .a => { x with a := v }
  | .b => { x with b := v }

def PerPort.get {α : Type} (x : PerPort α) : Port → α
  | .subA => x.subA
  | .subB => x.subB
  | .policy => x.policy

def PerPort.set {α : Type} (x : PerPort α) (p : Port) (v : α) : PerPort α :=
  match p with
  | .subA => { x with subA := v }
  | .subB => { x with subB := v }
  | .policy => { x with policy := v }

def State.port (s : State) (p : Port) : PortState := s.pi.get p

def State.setPort (s : State) (p : Port) (x : PortState) : State := { s with pi := s.pi.set p x }

/-! ### Tables -/

/-- Every element of a table rewritten. -/
def mapTable {α : Type} {n : Nat} (v : Vector α n) (f : α → α) : Vector α n :=
  ⟨⟨v.toList.map f⟩, by simp⟩

/-- The entries of a table that are present, each with its index, in ascending order of index. -/
def tableList {α : Type} {n : Nat} (v : Vector (Option α) n) : List (Nat × α) :=
  v.toList.zipIdx.filterMap (fun x => x.1.map (fun y => (x.2, y)))

/-- The lowest absent index of a table. -/
def lowestFree {α : Type} {n : Nat} (v : Vector (Option α) n) : Option Nat :=
  (v.toList.zipIdx.find? (fun x => x.1.isNone)).map (·.2)

/-- The absent indexes of a table, lowest first. -/
def freeIndexes {α : Type} {n : Nat} (v : Vector (Option α) n) : List Nat :=
  (v.toList.zipIdx.filter (fun x => x.1.isNone)).map (·.2)

/-- The cell entry at an index; none for a FREE one and for an index above 23. -/
def State.cell? (s : State) (i : Nat) : Option Cell := (s.ct.cells[i]?).join

def State.setCell (s : State) (i : Nat) (c : Option Cell) : State :=
  { s with ct := { s.ct with cells := s.ct.cells.setIfInBounds i c } }

def State.updateCell (s : State) (i : Nat) (f : Cell → Cell) : State :=
  match s.cell? i with
  | some c => s.setCell i (some (f c))
  | none => s

def State.cellList (s : State) : List (Nat × Cell) := tableList s.ct.cells

/-- The record at a handle; none for a free one and for a handle above 63. -/
def State.record? (s : State) (h : Nat) : Option Record := (s.rt.records[h]?).join

def State.setRecord (s : State) (h : Nat) (r : Option Record) : State :=
  { s with rt := { s.rt with records := s.rt.records.setIfInBounds h r } }

def State.updateRecord (s : State) (h : Nat) (f : Record → Record) : State :=
  match s.record? h with
  | some r => s.setRecord h (some (f r))
  | none => s

def State.updateOcc (s : State) (h : Nat) (f : Occurrence → Occurrence) : State :=
  s.updateRecord h (fun r => { r with occ := f r.occ })

/-- The records that exist, in ascending order of handle. -/
def State.recordList (s : State) : List (Nat × Record) := tableList s.rt.records

/-- How many records an owner holds (R38). -/
def State.recordsOf (s : State) (o : Owner) : Nat := (s.recordList.filter (fun x => x.2.owner == o)).length

def State.call? (s : State) (o : Owner) : Option Call := s.su.calls.get o

def State.setCall (s : State) (o : Owner) (c : Option Call) : State :=
  { s with su := { s.su with calls := s.su.calls.set o c } }

def State.exchange? (s : State) (i : Nat) : Option Exchange := (s.su.exchanges[i]?).join

def State.setExchange (s : State) (i : Nat) (e : Option Exchange) : State :=
  { s with su := { s.su with exchanges := s.su.exchanges.setIfInBounds i e } }

def State.updateExchange (s : State) (i : Nat) (f : Exchange → Exchange) : State :=
  match s.exchange? i with
  | some e => s.setExchange i (some (f e))
  | none => s

def State.exchangeList (s : State) : List (Nat × Exchange) := tableList s.su.exchanges

def State.handover? (s : State) (o : Owner) : Option Handover := s.hu.records.get o

def State.setHandover (s : State) (o : Owner) (h : Option Handover) : State :=
  { s with hu := { s.hu with records := s.hu.records.set o h } }

def State.revert? (s : State) (o : Owner) : Option RevertWindow := s.hu.windows.get o

def State.setRevert (s : State) (o : Owner) (w : Option RevertWindow) : State :=
  { s with hu := { s.hu with windows := s.hu.windows.set o w } }

/-- The index of the owner's SERVING entry (section 2.3). -/
def State.serving? (s : State) (o : Owner) : Option Nat :=
  (s.cellList.find? (fun x => x.2.owner == o && x.2.state == .serving)).map (·.1)

/-- The anchor expiry LT of an anchor: eight cycles after its anchor LT (section 2.1). -/
def Anchor.expiry (a : Anchor) : LocalTime := plus a.lt anchorLife

/-! ### Kinds, bindings, the timeline -/

/-- The direction of a kind: true for TX (R39). -/
def Kind.isTx : Kind → Bool
  | .sigTx => true
  | .access => true
  | .callTx => true
  | .stepTx => true
  | .page => false
  | .meas => false
  | .search => false
  | .sigRx => false
  | .callRx => false
  | .stepRx => false

/-- A call burst (R69). -/
def Kind.isCall (k : Kind) : Bool := k == .callRx || k == .callTx

/-- Only MEAS and SEARCH may be resumable (R39). -/
def Kind.mayResume (k : Kind) : Bool := k == .meas || k == .search

/-- The longest window of a kind, in ticks (R39). -/
def Kind.longest : Kind → Nat
  | .search => 960000
  | .access => 48000
  | .page => 480000
  | .meas => 480000
  | .sigRx => 480000
  | .sigTx => 480000
  | .callRx => 480000
  | .callTx => 480000
  | .stepRx => 480000
  | .stepTx => 480000

/-- The kind at a place of the list of section 3.1 that RESERVE may create (R42). -/
def reservableKind (code : Nat) : Option Kind :=
  match code with
  | 0 => some .page
  | 1 => some .meas
  | 2 => some .search
  | 3 => some .sigRx
  | 4 => some .sigTx
  | 5 => some .access
  | _ => none

/-- In the timeline exactly in these three states (R40). -/
def OccState.inTimeline : OccState → Bool
  | .granted => true
  | .active => true
  | .suspended => true
  | .waiting => false
  | .withdrawn => false

/-- The end of the interval of R61: the cut time of an ACTIVE part where one is scheduled, else placed start plus
length remaining. -/
def Occurrence.endLt (x : Occurrence) : LocalTime :=
  match x.state, x.cutAt with
  | .active, some c => c
  | _, _ => plus x.placed x.remaining

/-- Insert a window in ascending order of placed start. -/
def insertWindow (w : Nat × Record) : List (Nat × Record) → List (Nat × Record)
  | [] => [w]
  | y :: ys => if before y.2.occ.placed w.2.occ.placed then y :: insertWindow w ys else w :: y :: ys

/-- The timeline of R61: the windows in ascending order of placed start. -/
def State.timeline (s : State) : List (Nat × Record) :=
  (s.recordList.filter (fun x => x.2.occ.state.inTimeline)).foldr insertWindow []

/-- The ACTIVE window. -/
def State.active? (s : State) : Option (Nat × Record) := s.timeline.find? (fun x => x.2.occ.state == .active)

/-- The next window of R86: the first of the timeline that is not ACTIVE. -/
def State.nextUp? (s : State) : Option (Nat × Record) := s.timeline.find? (fun x => !(x.2.occ.state == .active))

/-! ### Events -/

/-- A byte of flags, bit 0 first. -/
def flagBits (bits : List Bool) : BitVec 8 :=
  BitVec.ofNat 8 (bits.foldr (fun b n => b.toNat + 2 * n) 0)

/-- The low 16 bits of a number. -/
def low16 (n : Nat) : BitVec 16 := BitVec.ofNat 16 n

/-- A count in 16 bits, saturating at 65,535. -/
def sat16 (n : Nat) : BitVec 16 := BitVec.ofNat 16 (min n 65535)

/-- A counter of 16 bits, saturating at 65,535. -/
def bump (n : Nat) : Nat := min (n + 1) 65535

/-- Append an event to a port's queue; at a full queue drop it, set the overflow flag and count it (R183). An event
for a disabled port is discarded (R182). -/
def PortState.push (x : PortState) (e : Event) : PortState :=
  if x.enabled then
    if x.queue.length < 16 then { x with queue := x.queue ++ [e] }
    else
      { x with
        flags := { x.flags with overflow := true }
        overflowAnew := true
        overflowCount := min (x.overflowCount + 1) 255 }
  else x

/-- Post an event to a port, stamped with the present LT (R4, R182). -/
def State.postPort (s : State) (p : Port) (kind : EventKind) (subject : Nat) (reason : Reason) (flags : BitVec 8)
    (detail : BitVec 16) : State :=
  s.setPort p ((s.port p).push ⟨kind, subject, reason, flags, detail, s.tb.lt⟩)

/-- Post an event to an owner's port (R182). -/
def State.post (s : State) (o : Owner) (kind : EventKind) (subject : Nat) (reason : Reason) (flags : BitVec 8)
    (detail : BitVec 16) : State :=
  s.postPort o.port kind subject reason flags detail

/-- Take one value that the manual does not state (Config.freeWord), counting it as taken. -/
def State.takeFree (s : State) : BitVec 16 × State :=
  (Config.freeWord s.free, { s with free := s.free + 1 })

end Sys2Proof.Machine
end

