-- ==== Sys2Proof/Machine/Flags.lean ====
section
/-!
DEFINITION. Every byte of flags the manual lays out: the port flags of a response (R178), the flags of each event that
carries any, and the codes of reasons, kinds and statuses.
-/

namespace Sys2Proof

/-- The status code of section 10.3. -/
def Status.code : Status → Nat
  | .ok => 1
  | .badCommand => 2
  | .wrongPort => 3
  | .badParam => 4
  | .duplicate => 5
  | .quota => 6
  | .tableFull => 7
  | .unknown => 8
  | .notOwner => 9
  | .inUse => 10
  | .state => 11
  | .notTimed => 12
  | .notServing => 13
  | .noCapture => 14
  | .late => 15
  | .badPolicy => 16
  | .callActive => 17
  | .span => 18
  | .noRoom => 19
  | .hoPending => 20
  | .noHo => 21
  | .busyCal => 22

end Sys2Proof

namespace Sys2Proof.Machine

/-- The kind byte of an event record (section 10.4). -/
def EventKind.code : EventKind → Nat
  | .captured => 1
  | .stale => 2
  | .candidate => 3
  | .missed => 4
  | .recordEnded => 5
  | .deferred => 6
  | .occLost => 7
  | .suspended => 8
  | .resumed => 9
  | .windowSoon => 10
  | .windowEnd => 11
  | .callDegraded => 12
  | .callEnded => 13
  | .exchDone => 14
  | .exchAbandoned => 15
  | .switched => 16
  | .hoFailed => 17
  | .revertClosed => 18
  | .woke => 19
  | .calDone => 20
  | .calRejected => 21
  | .calAborted => 22
  | .portReset => 23

/-- The reason byte of an event record (section 10.4). -/
def Reason.code : Reason → Nat
  | .none => 0
  | .done => 1
  | .cut => 2
  | .denied => 3
  | .displaced => 4
  | .yielded => 5
  | .late => 6
  | .untimed => 7
  | .missedSwitch => 8
  | .straddling => 9
  | .cancelled => 10
  | .exhausted => 11
  | .stale => 12
  | .timer => 13
  | .command => 14

/-- The reason that reports an occurrence's outcome (the reason table of section 10.4). -/
def Ending.reason : Ending → Reason
  | .done => .done
  | .cut => .cut
  | .denied false => .denied
  | .denied true => .displaced
  | .yielded => .yielded
  | .missed .late => .late
  | .missed .untimed => .untimed
  | .missed .switch => .missedSwitch
  | .cancelled => .cancelled

/-- Byte 3 of the response frame: collision, frame error, event overflow, events present (R178, R181). -/
def portFlagsByte (f : PortFlags) (eventsPresent : Bool) : BitVec 8 :=
  flagBits [f.collision, f.frameError, f.overflow, eventsPresent]

/-- The flags of WINDOW_END (R95). -/
def windowEndFlags (early cut endedSuspended : Bool) (x : Occurrence) : BitVec 8 :=
  flagBits [early, cut, x.shortfall, x.lateLoad, x.widened, endedSuspended]

/-- The waiting flag of MISSED is bit 0 (section 10.4). -/
def missedFlags (waiting : Bool) : BitVec 8 := flagBits [waiting]

/-- The guard-shortfall flag of SUSPENDED and RESUMED is bit 2 (section 10.4). -/
def shortfallFlags (shortfall : Bool) : BitVec 8 := flagBits [false, false, shortfall]

/-- WINDOW_SOON carries bit 0 for a remainder of a suspended occurrence (R97). -/
def windowSoonFlags (remainder : Bool) : BitVec 8 := flagBits [remainder]

/-- CALL_DEGRADED names the owner in bit 0 (R111). -/
def callDegradedFlags (o : Owner) : BitVec 8 := flagBits [o == .b]

/-- EXCH_DONE carries bit 0 when a cancel was pending (R126). -/
def exchDoneFlags (cancelPending : Bool) : BitVec 8 := flagBits [cancelPending]

/-- EXCH_ABANDONED: bit 0 a cancel was pending, bit 1 the abandonment cut an ACTIVE step (R128). -/
def exchAbandonedFlags (cancelPending cutActive : Bool) : BitVec 8 := flagBits [cancelPending, cutActive]

/-- SWITCHED: bit 0 a revert, bit 1 the clamped flag (R145, R151). -/
def switchedFlags (revert clamped : Bool) : BitVec 8 := flagBits [revert, clamped]

/-- HO_FAILED carries bit 0 for a failed REVERT (R149). -/
def hoFailedFlags (revert : Bool) : BitVec 8 := flagBits [revert]

/-- WOKE: bit 0 uncalibrated, bit 1 clamped to Smax, bit 2 no target (R164). -/
def wokeFlags (uncalibrated clamped noTarget : Bool) : BitVec 8 := flagBits [uncalibrated, clamped, noTarget]

/-- The calibration events: bit 0 the ratio was replaced, bit 1 started by auto-calibration (R174). -/
def calFlags (replaced auto : Bool) : BitVec 8 := flagBits [replaced, auto]

/-- The flags byte of TIME CELL's response: drift clamped, advance clamped, capture overrun (R29). -/
def timeCellFlags (drift advance overrun : Bool) : BitVec 8 := flagBits [drift, advance, overrun]

/-- The flags byte of READ TIME: uncalibrated, calibration running (R17). -/
def readTimeFlags (uncalibrated running : Bool) : BitVec 8 := flagBits [uncalibrated, running]

end Sys2Proof.Machine
end

