-- ==== Sys2Proof/Machine/Operands.lean ====
section
/-!
DEFINITION. The coding of every value that travels in a response or an event record (R178, R179, R182): widths, codes
of listed values, and the reading of a flag parameter. Which list a code counts in is notes/assumptions/8.
-/

namespace Sys2Proof.Machine

/-! ### Parameters -/

/-- A flag takes one byte (R179): 0 clear, 1 set; any other value is not stated (notes/assumptions/10). -/
def flagParam (b : Nat) : Bool :=
  match b with
  | 0 => false
  | 1 => true
  | _ => Config.oddFlag b

/-- A binding byte of 255 in RESERVE means follows-serving (R179). -/
def bindingParam (b : Nat) : Binding := if b == 255 then .followsServing else .byIndex b

/-! ### Results -/

/-- A flag takes one byte. -/
def flagByte (b : Bool) : List Byte := [if b then 1 else 0]

/-- An LT is six bytes. -/
def ltBytes (t : LocalTime) : List Byte := bytesOfNat 6 t.toNat

/-- A 16-bit count. -/
def countBytes (n : Nat) : List Byte := bytesOfNat 2 (min n 65535)

/-- A binding byte: the cell index, or 255 for follows-serving. R179 gives 255 for RESERVE's byte only; that READ
RESERVATION sends it back is the model's choice (notes/assumptions/8). -/
def bindingByte : Binding → List Byte
  | .byIndex i => bytesOfNat 1 i
  | .followsServing => bytesOfNat 1 255

/-- A count or remaining of two bytes, 0 for unlimited. -/
def limitBytes (n : Option Nat) : List Byte := bytesOfNat 2 (n.getD 0)

/-- A handle after its present flag; 0 follows a clear one (notes/assumptions/43). -/
def presentByte (h : Option Nat) : List Byte := flagByte h.isSome ++ bytesOfNat 1 (h.getD 0)

def CellState.code : CellState → Nat
  | .neighbour => 1
  | .serving => 2
  | .retiring => 3

def Kind.code : Kind → Nat
  | .page => 0
  | .meas => 1
  | .search => 2
  | .sigRx => 3
  | .sigTx => 4
  | .access => 5
  | .callRx => 6
  | .callTx => 7
  | .stepRx => 8
  | .stepTx => 9

/-- The order of section 3.2. -/
def OccState.code : OccState → Nat
  | .waiting => 0
  | .granted => 1
  | .withdrawn => 2
  | .active => 3
  | .suspended => 4

/-- READ TIMELINE: 0 GRANTED, 1 ACTIVE, 2 SUSPENDED (R84). -/
def OccState.timelineCode : OccState → Nat
  | .granted => 0
  | .active => 1
  | .suspended => 2
  | .waiting => 0
  | .withdrawn => 0

def SleepState.code : SleepState → Nat
  | .awake => 0
  | .entering => 1
  | .asleep => 2
  | .waking => 3

def TargetKind.code : TargetKind → Nat
  | .window => 0
  | .anchorExpiry => 1
  | .switch => 2
  | .revertClose => 3
  | .none => 4

/-- The wake reason takes the codes of the reason table, 0 for none (R167, section 10.4). -/
def WakeReason.code : WakeReason → Nat
  | .none => 0
  | .timer => 13
  | .command => 14

def CalOutcome.code : CalOutcome → Nat
  | .none => 0
  | .done => 1
  | .rejected => 2
  | .aborted => 3

/-- A vote: 0 HOLD, 1 ALLOW (R155); a port without one reads 0. -/
def voteCode : Option Vote → Nat
  | none => 0
  | some .hold => 0
  | some .allow => 1

/-- The 12-byte record of an event (R182). -/
def Event.bytes (e : Event) : List Byte :=
  bytesOfNat 1 e.kind.code ++ bytesOfNat 1 e.subject ++ bytesOfNat 1 e.reason.code ++ [e.flags]
    ++ bytesOfNat 2 e.detail.toNat ++ ltBytes e.time

end Sys2Proof.Machine
end

