-- ==== Sys2Proof/Machine/Timebase.lean ====
section
/-!
DEFINITION. TB's conversion of a cell time into local time (section 1.3), the cell-time sum (R5), the admission lead
(R11), the switch-aware resolution of a pending handover (R140) and the rounding the arithmetic uses.
-/

namespace Sys2Proof

/-- Every field of a cell time in its range (R5). -/
def CellTime.valid (t : CellTime) : Bool :=
  decide (t.frame < 2048) && decide (t.slot < 12) && decide (t.offset < 12000)

/-- A cell time plus `n` cell ticks; whole cycles carried out of the frame field are dropped (R5). -/
def CellTime.add (t : CellTime) (n : Nat) : CellTime :=
  let sum := t.slot * 12000 + t.offset + n
  let slots := sum / 12000
  ⟨(t.frame + slots / 12) % 2048, slots % 12, sum % 12000⟩

/-- The cell time of index k of a record: frame (f + k × period) mod 2,048 (R47). -/
def CellTime.atIndex (t : CellTime) (k period : Nat) : CellTime :=
  { t with frame := (t.frame + k * period) % 2048 }

/-- The cell ticks from the start of frame 0 of the cycle. -/
def CellTime.inCycle (t : CellTime) : Nat := t.frame * 144000 + t.slot * 12000 + t.offset

end Sys2Proof

namespace Sys2Proof.Machine

/-- `num / den` to the nearest integer, an exact half away from zero (R7, R173). -/
def roundHalfAway (num : Int) (den : Nat) : Int :=
  let q : Int := ((2 * num.natAbs + den) / (2 * den) : Nat)
  if num < 0 then -q else q

/-- `num / den` truncated toward zero (R173). -/
def truncToward (num : Int) (den : Nat) : Int :=
  let q : Int := (num.natAbs / den : Nat)
  if num < 0 then -q else q

/-- `num / den` rounded up (R159, R161). -/
def ceilDiv (num den : Nat) : Nat := (num + den - 1) / den

/-- Steps 2 to 4 of R7 for a frame distance. -/
def candidateAt (a : Anchor) (t : CellTime) (frames : Nat) : LocalTime :=
  let delta : Nat := frames * 144000 + t.slot * 12000 + t.offset
  let correction := roundHalfAway ((delta : Int) * a.drift) 1000000000
  BitVec.ofInt 48 ((a.lt.toNat : Int) + (delta : Int) + correction)

/-- The cycle search of R8: the first candidate after `ref`, with at most the given number of cycles added. -/
def searchCycles (a : Anchor) (t : CellTime) (ref : LocalTime) : Nat → Nat → Option LocalTime
  | 0, frames =>
      let c := candidateAt a t frames
      if before ref c then some c else none
  | left + 1, frames =>
      let c := candidateAt a t frames
      if before ref c then some c else searchCycles a t ref left (frames + 2048)

/-- A resolution's result (R6, R9, R10): untimed, out of reach, or an LT with the advance subtracted from it. -/
inductive Resolution where
  | untimed
  | outOfReach
  | found (lt : LocalTime) (advance : Nat)
  deriving DecidableEq, Repr

/-- Resolve a cell time on an entry after a reference point (R7 to R10). `earlier` is the advance of the earlier TX
occurrence whose nominal start is the reference, and 0 otherwise. -/
def Cell.resolve (c : Cell) (t : CellTime) (ref : LocalTime) (tx : Bool) (earlier : Nat) : Resolution :=
  match c.anchor with
  | none => .untimed
  | some a =>
      let point := if tx then plus ref earlier else ref
      match searchCycles a t point 9 ((t.frame + 2048 - a.frame % 2048) % 2048) with
      | none => .outOfReach
      | some x => if tx then .found (less x c.advance) c.advance else .found x 0

/-- Resolve on the entry of an index; an entry that is FREE has no anchor. -/
def State.resolveOn (s : State) (entry : Nat) (t : CellTime) (ref : LocalTime) (tx : Bool) (earlier : Nat) :
    Resolution :=
  match s.cell? entry with
  | some c => c.resolve t ref tx earlier
  | none => .untimed

/-- Far enough ahead of LT by the admission lead (R11). -/
def State.farEnough (s : State) (start : LocalTime) : Bool :=
  let d := ticksTo s.tb.lt start
  decide (admissionLead ≤ d) && decide (d < 140737488355328)

/-- Where an occurrence resolved: untimed or out of reach on an entry, an LT on an entry, or a target result that
falls before the switch time (R140). -/
inductive Placement where
  | untimed (entry : Nat)
  | found (entry : Nat) (lt : LocalTime) (advance : Nat)
  | switched (entry : Nat) (lt : LocalTime) (advance : Nat)
  deriving DecidableEq, Repr

/-- An out-of-reach result is treated exactly as an untimed one (R9). -/
def Resolution.onEntry (r : Resolution) (entry : Nat) : Placement :=
  match r with
  | .found lt adv => .found entry lt adv
  | .untimed => .untimed entry
  | .outOfReach => .untimed entry

/-- The switch-aware resolution of R140. -/
def State.resolveSwitchAware (s : State) (ho : Handover) (t : CellTime) (ref : LocalTime) (tx : Bool)
    (earlier : Nat) : Placement :=
  match s.resolveOn ho.source t ref tx earlier with
  | .found lt adv =>
      if before lt ho.ts then .found ho.source lt adv
      else
        match s.resolveOn ho.target t ref tx earlier with
        | .found lt' adv' => if before lt' ho.ts then .switched ho.target lt' adv' else .found ho.target lt' adv'
        | .untimed => .untimed ho.target
        | .outOfReach => .untimed ho.target
  | .untimed => .untimed ho.source
  | .outOfReach => .untimed ho.source

/-- Resolve for an owner's record: a binding by index on its own entry, a follows-serving one by R140 while a handover
of the owner is pending, and otherwise on the entry the order names (R47, R56). -/
def State.resolveFor (s : State) (o : Owner) (binding : Binding) (named : Nat) (t : CellTime) (ref : LocalTime)
    (tx : Bool) (earlier : Nat) : Placement :=
  match binding with
  | .byIndex i => (s.resolveOn i t ref tx earlier).onEntry i
  | .followsServing =>
      match s.handover? o with
      | some ho => s.resolveSwitchAware ho t ref tx earlier
      | none => (s.resolveOn named t ref tx earlier).onEntry named

end Sys2Proof.Machine
end

