-- ==== Sys2Proof/Machine/Windows.lean ====
section
/-!
DEFINITION. What WC does for every window: its notice (R97), its load state and planned rise while it is the next
window (R88, R98), its activation (R93, R99), the end of a part (R94), WINDOW_END (R95), and the link word and link
pins of a load (R90).
-/

namespace Sys2Proof.Machine

/-! ### Notices -/

/-- Post WINDOW_SOON for a window, taking its notice, with bit 0 for a remainder, which has been suspended before (R97).
A window may have risen before its notice instant; the notice is then posted while it is ACTIVE (notes/assumptions/48).
Where the placed start already lies behind LT the manual states no detail, and a free value stands there
(notes/assumptions/12). -/
def State.postNotice (s : State) (h : Nat) (r : Record) : State :=
  let done := s.updateOcc h (fun x => { x with notice := none })
  if atOrBefore s.tb.lt r.occ.placed then
    done.post r.owner .windowSoon h .none (windowSoonFlags (decide (0 < r.occ.suspensions)))
      (sat16 (ticksTo s.tb.lt r.occ.placed / 8))
  else
    done.takeFree.2.post r.owner .windowSoon h .none (windowSoonFlags (decide (0 < r.occ.suspensions)))
      done.takeFree.1

/-- Set the notice of a window just placed: its placed start less P; an instant not after LT is reached at once
(R97, R3). -/
def State.setNotice (s : State) (h : Nat) : State :=
  match s.record? h with
  | none => s
  | some r =>
      let instant := less r.occ.placed s.sc.params.lead
      if before s.tb.lt instant then s.updateOcc h (fun x => { x with notice := some instant })
      else s.postNotice h r

/-! ### The end of a part -/

/-- Both window lines low. -/
def State.dropLines (s : State) : State := { s with wc := { s.wc with rxEn := false, txEn := false } }

/-- The ACTIVE part of a window ends at an LT: its ticks are added to ticks served and taken from length remaining,
the line drops, last end is recorded and the window leaves the timeline (R94, R96, R79). -/
def State.endPart (s : State) (h : Nat) (at' : LocalTime) : State :=
  let s1 := s.updateOcc h (fun x =>
    { x with
      state := .withdrawn
      served := x.served + ticksTo x.placed at'
      remaining := x.remaining - ticksTo x.placed at'
      cutAt := none
      notice := none })
  { s1.dropLines with wc := { s1.dropLines.wc with lastEnd := some at' } }

/-- Post WINDOW_END: the ticks served over all parts divided by 16, rounded down, saturating (R95). -/
def State.postWindowEnd (s : State) (h : Nat) (reason : Reason) (early cut endedSuspended : Bool) : State :=
  match s.record? h with
  | none => s
  | some r =>
      s.post r.owner .windowEnd h reason (windowEndFlags early cut endedSuspended r.occ) (sat16 (r.occ.served / 16))

/-! ### The next window -/

/-- The load state of a window that becomes the next one: READY without a word where the front end already holds its
profile unwritten, else OWED (R88). -/
def State.decideLoad (s : State) (o : Owner) (profile : Nat) : LoadState :=
  if s.wc.lastLoaded == some (o, profile) && !s.wc.writtenSince then .ready else .owed

/-- The planned rise of the next window: its placed start, or earlier by a widening for an RX window while W_pending
is not 0 (R98), never after the placed start (notes/assumptions/15). -/
def State.planRise (s : State) (r : Record) : LocalTime :=
  if r.kind.isTx || s.wc.pendingWidening == 0 then r.occ.placed
  else
    let floor := laterOf s.wc.wakeLt s.tb.lt
    let trimmed := match s.wc.lastEnd with
      | some e => laterOf floor (plus e s.arb.guard)
      | none => floor
    earlierOf r.occ.placed (laterOf (less r.occ.placed s.wc.pendingWidening) trimmed)

/-- The next window as fixed now, with a given load state. -/
def State.fixNext (s : State) (h : Nat) (r : Record) (load : LoadState) : NextWindow :=
  ⟨h, r.occ.k, load, s.planRise r, r.occ.placed, s.wc.pendingWidening, s.arb.guard⟩

/-- WC takes up the change ARB hands it (R86): a window that becomes the next one has its load state decided and its
planned rise fixed; one that stays keeps its load state, and its rise is fixed again when its placed start, W_pending
or G has changed (R98). A load in flight whose window has left the timeline serves none, also where a re-resolution grants
the window again before the word completes (notes/assumptions/51). -/
def State.refreshWindows (s : State) : State :=
  let next := match s.nextUp? with
    | none => none
    | some (h, r) =>
        match s.wc.next with
        | some nx =>
            if nx.handle == h && nx.k == r.occ.k then
              if nx.fixedPlaced == r.occ.placed && nx.fixedPending == s.wc.pendingWidening
                  && nx.fixedGuard == s.arb.guard then some nx
              else some (s.fixNext h r nx.load)
            else some (s.fixNext h r (s.decideLoad r.owner r.occ.profile))
        | none => some (s.fixNext h r (s.decideLoad r.owner r.occ.profile))
  let load := s.wc.load.map (fun l =>
    { l with
      serves := l.serves.filter (fun w =>
        match s.record? w.1 with
        | some r => r.occ.k == w.2 && r.occ.state.inTimeline
        | none => false) })
  { s with wc := { s.wc with next := next, load := load } }

/-! ### Activation -/

/-- SU learns that a step's window is ACTIVE: step 0 makes a PLACED exchange RUNNING (R126). -/
def State.informActivation (s : State) (h : Nat) (r : Record) : State :=
  match r.link with
  | some (.exchange i) =>
      s.updateExchange i (fun e =>
        match e.steps with
        | first :: _ => if first.handle == some h then { e with state := .running } else e
        | [] => e)
  | some .call => s
  | none => s

/-- A load in flight learns that the line of a window has risen; the first rise of the window it serves stays (R89). -/
def Load.rose (l : Load) (h k : Nat) (at' : LocalTime) : Load :=
  if l.serves == some (h, k) then { l with rise := some (l.rise.getD at') } else l

/-- WC activates the next window (R93), widened where its planned rise is before its placed start (R99). RESUMED is
posted for a remainder, and the first activation after a wake spends W_pending (R98). A notice not yet posted stays
(notes/assumptions/48). -/
def State.activate (s : State) (nx : NextWindow) : State :=
  match s.record? nx.handle with
  | none => s
  | some r =>
      let widening := if before nx.rise r.occ.placed then ticksTo nx.rise r.occ.placed else 0
      let placed := less r.occ.placed widening
      let s1 := s.updateOcc nx.handle (fun x =>
        { x with
          state := .active
          placed := placed
          remaining := x.remaining + widening
          widened := x.widened || decide (0 < widening)
          firstRise := some (x.firstRise.getD placed)
          cutAt := none })
      let s2 :=
        { s1 with
          wc := { s1.wc with
            rxEn := !r.kind.isTx, txEn := r.kind.isTx, pendingWidening := 0, activeLoad := nx.load, next := none
            load := s1.wc.load.map (fun (l : Load) => l.rose nx.handle r.occ.k placed) } }
      let s3 := s2.informActivation nx.handle r
      let s4 :=
        if r.occ.state == .suspended then
          s3.post r.owner .resumed nx.handle .none (shortfallFlags r.occ.shortfall) (low16 r.occ.suspensions)
        else s3
      s4.refreshWindows

/-- The next window may rise: no window is ACTIVE, its planned rise has been reached, and LT counts (R93, R160). -/
def State.riseDue (s : State) : Option NextWindow :=
  match s.wc.next with
  | none => none
  | some nx =>
      if s.active?.isNone && s.reached nx.rise && (s.sc.state == .awake || s.sc.state == .entering) then some nx
      else none

/-! ### The front-end link -/

/-- The profile at an index of an owner's table. -/
def State.profile (s : State) (o : Owner) (i : Nat) : Profile := ((s.wc.profiles.get o)[i]?).getD ⟨0, 0, 0, 0⟩

/-- The link word of R90. -/
def linkWord (sequence : Nat) (o : Owner) (f : Profile) : BitVec 32 :=
  BitVec.ofNat 32 (sequence * 268435456 + o.code * 134217728 + f.band * 2097152 + f.channel * 32 + f.gain * 4
    + f.antenna)

/-- FL_CLK, FL_DATA and FL_LE (R90); all low while no load is in flight. FL_DATA keeps bit 0 after the last pulse
until tick 144 (notes/assumptions/31). -/
def State.linkPins (s : State) : Bool × Bool × Bool :=
  match s.wc.load with
  | none => (false, false, false)
  | some l =>
      let t := ticksTo l.start s.tb.lt
      if t < 16 then (false, l.word.getLsbD 31, false)
      else if t < 144 then
        let u := t - 16
        let fallen := (u + 2) / 4
        (decide (u % 4 < 2), l.word.getLsbD (31 - min fallen 31), false)
      else (false, false, decide (t < 152))

/-- The window a load would serve now: the ACTIVE window's own owed load first, else the next window's once its load
point is reached and no line is high (R89). -/
def State.loadDue (s : State) : Option (Nat × Record) :=
  if s.wc.load.isSome || !(s.sc.state == .awake || s.sc.state == .entering) then none
  else
    match s.active? with
    | some w => if s.wc.activeLoad == .owed then some w else none
    | none =>
        match s.wc.next with
        | some nx =>
            if nx.load == .owed && s.reached (less nx.rise loadLead) then
              (s.record? nx.handle).map (fun r => (nx.handle, r))
            else none
        | none => none

/-- A load begins: the word takes the settings and the sequence as they stand, and the sequence advances (R89, R90). The
line of an ACTIVE window has risen already. -/
def State.beginLoad (s : State) (h : Nat) (r : Record) : State :=
  { s with
    wc := { s.wc with
      load := some
        { owner := r.owner
          profile := r.occ.profile
          word := linkWord s.wc.sequence r.owner (s.profile r.owner r.occ.profile)
          start := s.tb.lt
          serves := some (h, r.occ.k)
          rise := if r.occ.state == .active then some r.occ.placed else none
          orphaned := false
          rewritten := false }
      sequence := (s.wc.sequence + 1) % 16 } }

/-- A load that completes at an LT completes after the rise of the line of the window it serves (R89). -/
def Load.isLate (l : Load) (at' : LocalTime) : Bool := l.rise.any (fun x => before x at')

/-- A load completes: last loaded names its profile, unless its owner was port reset meanwhile; the window it serves
becomes READY, with the late-load flag where the completion falls after its rise (R88, R89, R91, R92), also where the
part that rose has meanwhile been cut (bit 3 of R95; notes/assumptions/36). -/
def State.finishLoad (s : State) (l : Load) (at' : LocalTime) : State :=
  let s1 :=
    { s with
      wc := { s.wc with
        load := none
        lastLoaded := if l.orphaned then none else some (l.owner, l.profile)
        writtenSince := !l.orphaned && l.rewritten } }
  match l.serves with
  | none => s1
  | some (h, k) =>
      match s1.record? h with
      | none => s1
      | some r =>
          if r.occ.k == k then
            let s2 :=
              if r.occ.state == .active then { s1 with wc := { s1.wc with activeLoad := .ready } }
              else
                { s1 with
                  wc := { s1.wc with
                    next := s1.wc.next.map (fun nx =>
                      if nx.handle == h && nx.k == k then { nx with load := .ready } else nx) } }
            if l.isLate at' then s2.updateOcc h (fun x => { x with lateLoad := true }) else s2
          else s1

end Sys2Proof.Machine
end

