-- ==== Sys2Proof/Machine/Records.lean ====
section
/-!
DEFINITION. The work of one step while RT, ARB and SU act on each other (R41, R77): the state with what the ordering
command wants to know, and the ways a record ends (R38, R50).
-/

namespace Sys2Proof.Machine

/-- The outcome of an arrival whose admitting command reports it in its response (R44, R105, R125). -/
inductive AdmitOutcome where
  | granted
  | deferred
  | denied
  | yielded
  deriving DecidableEq, Repr

/-- The reported outcome and placement of an arrival. -/
structure Admission where
  handle : Nat
  outcome : AdmitOutcome
  placed : LocalTime
  shift : Nat
  deriving DecidableEq, Repr

/-- An exchange abandoned in this step: the failing step, the reason and the steps as they ended (R125, R128). -/
structure Abandonment where
  failing : Nat
  reason : Reason
  steps : List Step
  deriving DecidableEq, Repr

/-- The state with the counts of R57, the reports of admissions, the record a RESERVE is admitting, the exchange an
EXCHANGE SUBMIT is admitting, and its abandonment. -/
structure Work where
  st : State
  moved : Nat
  missed : Nat
  lost : Nat
  admitted : List Admission
  admitting : Option Nat
  submitting : Option Nat
  abandoned : Option Abandonment
  deriving DecidableEq, Repr

/-- Work that starts from a state, with nothing counted. -/
def Work.of (s : State) : Work := ⟨s, 0, 0, 0, [], none, none, none⟩

def Work.map (w : Work) (f : State → State) : Work := { w with st := f w.st }

/-- Count an ending on a record: served for DONE; lost for CUT, DENIED, YIELDED and MISSED; neither for CANCELLED
(step 1 of R41). -/
def Record.count' (r : Record) (e : Ending) : Record :=
  match e with
  | .done => { r with served := bump r.served }
  | .cancelled => r
  | .cut => { r with lost := bump r.lost }
  | .denied _ => { r with lost := bump r.lost }
  | .yielded => { r with lost := bump r.lost }
  | .missed _ => { r with lost := bump r.lost }

/-- SU forgets the handle of a record that ends: a step's, or a call burst's. -/
def State.dropLink (s : State) (h : Nat) (r : Record) : State :=
  match r.link with
  | none => s
  | some .call =>
      match s.call? r.owner with
      | none => s
      | some c =>
          s.setCall r.owner (some
            { c with
              rxHandle := if c.rxHandle == some h then none else c.rxHandle
              txHandle := if c.txHandle == some h then none else c.txHandle })
  | some (.exchange i) =>
      s.updateExchange i (fun e =>
        { e with steps := e.steps.map (fun x => if x.handle == some h then { x with handle := none } else x) })

/-- A record ends: its reference-count contribution is withdrawn and its handle is free (R38, R21). -/
def State.removeRecord (s : State) (h : Nat) : State :=
  match s.record? h with
  | none => s
  | some r =>
      let s1 := (s.setRecord h none).dropLink h r
      match r.binding with
      | .byIndex i => s1.updateCell i (fun c => { c with refCount := c.refCount - 1 })
      | .followsServing => s1

/-- A record ends by exhaustion: RECORD_ENDED unless it has a session link or ends in its own admission (R50). The
last burst record of an ENDING call ends the session with CALL_ENDED (R113). -/
def Work.exhaust (w : Work) (h : Nat) (e : Ending) : Work :=
  match w.st.record? h with
  | none => w
  | some r =>
      let s1 := w.st.removeRecord h
      match r.link with
      | none =>
          if w.admitting == some h then { w with st := s1 }
          else { w with st := s1.post r.owner .recordEnded h .exhausted 0 (low16 r.served) }
      | some (.exchange _) => { w with st := s1 }
      | some .call =>
          match s1.call? r.owner with
          | none => { w with st := s1 }
          | some c =>
              if c.state == .ending && c.rxHandle.isNone && c.txHandle.isNone then
                { w with st := (s1.setCall r.owner none).post r.owner .callEnded h e.reason 0 0 }
              else { w with st := s1 }

end Sys2Proof.Machine
end

