-- ==== Sys2Proof/Machine/Session.lean ====
section
/-!
DEFINITION. What SU does when RT reports an ending (R41): a call's reference period and degradation (R107, R110,
R111), an exchange's completion and abandonment (R126, R127, R128, R131), and its answer to a yield request (R108).
-/

namespace Sys2Proof.Machine

/-! ### Calls -/

/-- Period `a` lies before period `b`, in the circular order of 65,536 (R106). -/
def periodBefore (a b : Nat) : Bool :=
  let d := (b + 65536 - a % 65536) % 65536
  decide (1 ≤ d) && decide (d ≤ 32767)

/-- Period `a` lies 32 or more periods before `b` (R106, step 2 of R108). -/
def periodAged (a b : Nat) : Bool :=
  let d := (b + 65536 - a % 65536) % 65536
  decide (32 ≤ d) && decide (d ≤ 32767)

/-- h moves to a period if it is none or that period is after it; it is never moved back (R107). -/
def laterPeriod (h : Option Nat) (p : Nat) : Option Nat :=
  match h with
  | none => some p
  | some x => if periodBefore x p then some p else some x

/-- The reason CALL_DEGRADED carries: CUT, DENIED or MISSED with its reason (R111). -/
def degradedReason : Ending → Reason
  | .denied _ => .denied
  | .done => .done
  | .cut => .cut
  | .yielded => .yielded
  | .missed r => (Ending.missed r).reason
  | .cancelled => .cancelled

/-- The degradation counter after a receive ending of a RUNNING call (R110). -/
def degradationAfter (c : Call) (e : Ending) : Nat :=
  match e with
  | .done => 0
  | .yielded => c.degradation
  | .cancelled => c.degradation
  | .cut => min (c.degradation + 1) c.params.threshold
  | .denied _ => min (c.degradation + 1) c.params.threshold
  | .missed _ => min (c.degradation + 1) c.params.threshold

/-- SU takes the ending of a call burst of index k; a transmit ending changes nothing (R106, R107, R110, R111). -/
def State.informCall (s : State) (h : Nat) (r : Record) (k : Nat) (e : Ending) : State :=
  if r.kind == .callRx then
    match s.call? r.owner with
    | none => s
    | some c =>
        let c1 := { c with reference := laterPeriod c.reference k }
        if c.state == .running then
          let after := degradationAfter c e
          let s1 := s.setCall r.owner (some { c1 with degradation := after })
          if c.degradation < after && after == c.params.threshold then
            let s2 := s1.post r.owner .callDegraded h (degradedReason e) (callDegradedFlags r.owner) (low16 k)
            s2.postPort .policy .callDegraded h (degradedReason e) (callDegradedFlags r.owner) (low16 k)
          else s1
        else s.setCall r.owner (some c1)
  else s

/-- SU's answer to a yield request of ARB, naming an owner's session and the periods, ascending (R108). -/
def State.answerYield (s : State) (o : Owner) (periods : List Nat) : State × Bool :=
  match s.call? o with
  | none => (s, false)
  | some c =>
      let h := match periods with
        | lowest :: _ => laterPeriod c.reference lowest
        | [] => c.reference
      let kept := match h with
        | some x => c.yields.filter (fun y => !periodAged y x)
        | none => c.yields
      let fresh := periods.filter (fun p => !kept.contains p)
      let behind := match h with
        | some x => fresh.any (fun p => periodBefore p x)
        | none => false
      let grant := fresh.isEmpty || (!behind && decide (kept.length + fresh.length ≤ c.params.allowance))
      let yields := if grant then kept ++ fresh else kept
      let c1 :=
        { c with
          reference := h
          yields := yields
          granted := if grant then bump c.granted else c.granted
          refused := if grant then c.refused else bump c.refused }
      (s.setCall o (some c1), grant)

/-! ### Exchanges -/

/-- The position of the step whose record has a handle. -/
def Exchange.stepOf (x : Exchange) (h : Nat) : Option Nat := x.steps.findIdx? (fun y => y.handle == some h)

/-- Record how a step ended. -/
def Exchange.endStep (x : Exchange) (j : Nat) (e : Ending) : Exchange :=
  { x with steps := x.steps.modify j (fun y => { y with ending := some e }) }

/-- The lowest step that has not ended DONE (R128). -/
def Exchange.lowestNotDone (x : Exchange) : Nat :=
  (x.steps.findIdx? (fun y => !(y.ending == some .done))).getD x.steps.length

/-- End one other step of an abandoned exchange: an ACTIVE one is cut at once with its WINDOW_END, any other is taken
out or not offered as CANCELLED (the table of R127), also where ARB has DENIED it and RT has not yet taken that up
(notes/assumptions/44). Answers the ending. -/
def State.endOtherStep (s : State) (h : Nat) : State × Ending :=
  match s.record? h with
  | none => (s, .cancelled)
  | some r =>
      if r.occ.state == .active then
        (((s.endPart h s.tb.lt).postWindowEnd h .cut false true false).removeRecord h, .cut)
      else (s.removeRecord h, .cancelled)

/-- End every step of an exchange whose record still exists, but for the one in hand, in step order. -/
def State.endSteps (s : State) (i : Nat) (inHand : Option Nat) : List (Nat × Nat) → Bool → State × Bool
  | [], cutActive => (s, cutActive)
  | (j, h) :: rest, cutActive =>
      if inHand == some h then s.endSteps i inHand rest cutActive
      else
        let ended := s.endOtherStep h
        (ended.1.updateExchange i (fun x => x.endStep j ended.2)).endSteps i inHand rest
          (cutActive || ended.2 == .cut)

/-- The steps of an exchange whose records exist, each with its position. -/
def Exchange.liveSteps (x : Exchange) : List (Nat × Nat) :=
  x.steps.zipIdx.filterMap (fun y => y.1.handle.map (fun h => (y.2, h)))

/-- SU abandons an exchange (R127): every other step ends, EXCH_ABANDONED is posted unless the response of the command
in hand speaks for it, and the record is free. -/
def Work.abandon (w : Work) (i failing : Nat) (reason : Reason) (inHand : Option Nat) (announce : Bool) : Work :=
  match w.st.exchange? i with
  | none => w
  | some x =>
      let ended := w.st.endSteps i inHand x.liveSteps false
      let final := (ended.1.exchange? i).getD x
      let s1 :=
        if announce && !(w.submitting == some i) then
          ended.1.post x.owner .exchAbandoned i reason (exchAbandonedFlags x.cancelPending ended.2)
            (low16 (failing + 256 * final.done))
        else ended.1
      { w with
        st := s1.setExchange i none
        abandoned := if w.submitting == some i then some ⟨failing, reason, final.steps⟩ else w.abandoned }

/-- SU takes the ending of a step (R126, R127, R131). Where the last step of the list ends DONE before an earlier one,
which R126 rules out and a re-resolution can bring about, the exchange completes all the same and the record of the earlier
step stays as it is. With a cancel pending the failing step is the lowest not ended DONE (R128), which in step order is the
next one of R131 (notes/assumptions/49). -/
def Work.informExchange (w : Work) (i h : Nat) (e : Ending) : Work :=
  match w.st.exchange? i with
  | none => w
  | some x =>
      match x.stepOf h with
      | none => w
      | some j =>
          let x1 := x.endStep j e
          if e == .done then
            let x2 := { x1 with done := x1.done + 1 }
            let s1 := w.st.setExchange i (some x2)
            if j + 1 == x.steps.length then
              { w with
                st := (s1.post x.owner .exchDone i .none (exchDoneFlags x.cancelPending)
                  (low16 x.steps.length)).setExchange i none }
            else if x.cancelPending then { w with st := s1 }.abandon i x2.lowestNotDone .cancelled (some h) true
            else { w with st := s1 }
          else ({ w with st := w.st.setExchange i (some x1) }).abandon i j e.reason (some h) true

/-- RT passes an ending to SU (step 2 of R41). -/
def Work.inform (w : Work) (h : Nat) (r : Record) (k : Nat) (e : Ending) : Work :=
  match r.link with
  | none => w
  | some .call => { w with st := w.st.informCall h r k e }
  | some (.exchange i) => w.informExchange i h e

end Sys2Proof.Machine
end

