-- ==== Sys2Proof/Machine/Arbiter.lean ====
section
/-!
DEFINITION. ARB: conflicts and guarded ends (R63), classes (R64), the beats relation (R67), yields (R69, R71, R73),
the arbitration of an arrival (R70 to R77), searches (R74), cuts and remainders (R78 to R81) and trials (R83). What
RT must take up afterwards is handed on as tasks, in the order of R77.
-/

namespace Sys2Proof.Machine

/-! ### Conflicts and classes -/

/-- The guard between a window of an owner and profile and a timeline window: G where the profiles differ (R61, R63). -/
def State.guardTo (s : State) (o : Owner) (profile : Nat) (y : Record) : Nat :=
  if o == y.owner && profile == y.occ.profile then 0 else s.arb.guard

/-- A window [a, a + len) conflicts with a timeline window (R63). -/
def State.conflicts (s : State) (o : Owner) (profile : Nat) (a : LocalTime) (len : Nat) (y : Record) : Bool :=
  let g := s.guardTo o profile y
  before a (plus y.occ.endLt g) && before y.occ.placed (plus a (len + g))

/-- The guarded end of a timeline window with respect to a window being placed (R63). -/
def State.guardedEnd (s : State) (o : Owner) (profile : Nat) (y : Record) : LocalTime :=
  plus y.occ.endLt (s.guardTo o profile y)

/-- The class of a level under the thresholds in force (R64). -/
def State.classOf (s : State) (level : Nat) : Nat :=
  if level < s.arb.t1 then 0 else if level < s.arb.t2 then 1 else if level < s.arb.t3 then 2 else 3

/-- The holder of a class's turn token (R68). -/
def State.token (s : State) (cls : Nat) : Owner := (s.arb.tokens[cls]?).getD .a

/-! ### The beats relation -/

/-- The step of R67 that decided a comparison. -/
inductive DecidedBy where
  | active
  | cls
  | token
  | level
  deriving DecidableEq, Repr

/-- What the beats relation reads of the arriving window. -/
structure Arrival where
  handle : Nat
  owner : Owner
  kind : Kind
  level : Nat
  deriving DecidableEq, Repr

/-- Whether the arrival beats a timeline window, and by which step (R67); `token` is the holder read at the start. -/
def State.beats (s : State) (token : Owner) (x : Arrival) (yh : Nat) (y : Record) : Bool × DecidedBy :=
  let cx := s.classOf x.level
  let cy := s.classOf y.occ.level
  if y.occ.state == .active then (cx == 0 && !(x.owner == y.owner), .active)
  else if !(cx == cy) then (decide (cx < cy), .cls)
  else if !(x.owner == y.owner) then (token == x.owner, .token)
  else if !(x.level == y.occ.level) then (decide (x.level < y.occ.level), .level)
  else (decide (x.handle < yh), .level)

/-- One comparison of an arbitration, with the window as it stood. -/
structure Contest where
  handle : Nat
  rival : Record
  won : Bool
  decided : DecidedBy
  /-- Yield-open (R69). -/
  isOpen : Bool
  deriving DecidableEq, Repr

/-- Compare an arrival with a timeline window and tell whether the comparison is yield-open (R67, R69). -/
def State.contest (s : State) (token : Owner) (x : Arrival) (y : Nat × Record) : Contest :=
  let b := s.beats token x y.1 y.2
  let opposed := !(x.owner == y.2.owner) && !(y.2.occ.state == .active)
  { handle := y.1
    rival := y.2
    won := b.1
    decided := b.2
    isOpen := opposed
      && ((x.kind == .page && y.2.kind.isCall && !b.1) || (x.kind.isCall && y.2.kind == .page && b.1)) }

/-- The comparisons of an arrival with its conflict set, in ascending order of placed start (R67, R71). -/
def State.contests (s : State) (x : Arrival) (profile : Nat) (start : LocalTime) (len : Nat) : List Contest :=
  (s.timeline.filter (fun y => s.conflicts x.owner profile start len y.2)).map
    (s.contest (s.token (s.classOf x.level)) x)

/-- A trial: placeable when the window beats every member of its conflict set; changes no state (R83). -/
def State.trial (s : State) (x : Arrival) (profile : Nat) (start : LocalTime) (len : Nat) : Bool :=
  (s.contests x profile start len).all (·.won)

/-! ### Searches -/

/-- The walk of R74. It takes at most one step per timeline window; the first argument bounds it so. -/
def State.searchFrom (s : State) (o : Owner) (profile len : Nat) (latest : LocalTime) :
    Nat → LocalTime → Option LocalTime
  | 0, _ => none
  | left + 1, at' =>
      if before latest at' then none
      else
        match s.timeline.filter (fun y => s.conflicts o profile at' len y.2) with
        | [] => some at'
        | y :: ys =>
            s.searchFrom o profile len latest left
              (ys.foldl (fun e z => laterOf e (s.guardedEnd o profile z.2)) (s.guardedEnd o profile y.2))

/-- The earliest start from `low` to `latest` that conflicts with nothing (R74). -/
def State.search (s : State) (o : Owner) (profile len : Nat) (low latest : LocalTime) : Option LocalTime :=
  s.searchFrom o profile len latest (s.timeline.length + 1) low

/-! ### Tasks -/

/-- Where an arrival comes from: a command that reports its outcome, a generation, or a re-resolution (R44, R57). -/
inductive Origin where
  | admission
  | generated
  | member
  deriving DecidableEq, Repr

/-- What RT has yet to take up in this step, innermost first (R41, R56, R58, R77). `walk` carries the indexes this
walk has missed as late and at a switch, and whether it began at an occurrence that ended UNTIMED. -/
inductive Task where
  | offer (h k : Nat) (origin : Origin)
  | ended (h k : Nat) (e : Ending)
  | walk (h late switched : Nat) (untimed : Bool)
  | member (h k : Nat) (p : Placement)
  | expire (h entry : Nat)
  deriving DecidableEq, Repr

/-! ### Placing -/

/-- A window stands GRANTED at a start, with its shift, and its notice is set (R71, R75, R97). -/
def State.grantAt (s : State) (h : Nat) (start : LocalTime) (shift : Nat) : State :=
  (s.updateOcc h (fun x => { x with state := .granted, placed := start, shift := shift })).setNotice h

/-- The DEFERRED detail: the shift divided by 8, rounded up, saturating (R75, R81). -/
def deferredDetail (shift : Nat) : BitVec 16 := sat16 ((shift + 7) / 8)

def State.postDeferred (s : State) (o : Owner) (h shift : Nat) : State :=
  s.post o .deferred h .none 0 (deferredDetail shift)

/-- OCC_LOST: subject the handle, detail the low 16 bits of the index (R73, R75, R76). -/
def State.postLost (s : State) (o : Owner) (h k : Nat) (reason : Reason) : State :=
  s.post o .occLost h reason 0 (low16 k)

/-- Count an arrival's outcome where the ordering command wants it (R44, R57). -/
def Work.report (w : Work) (origin : Origin) (h : Nat) (outcome : AdmitOutcome) (placed : LocalTime) (shift : Nat) :
    Work :=
  match origin with
  | .admission => { w with admitted := w.admitted ++ [⟨h, outcome, placed, shift⟩] }
  | .generated => w
  | .member =>
      match outcome with
      | .granted => { w with moved := w.moved + 1 }
      | .deferred => { w with moved := w.moved + 1 }
      | .denied => { w with lost := w.lost + 1 }
      | .yielded => { w with lost := w.lost + 1 }

/-- An arrival that loses goes to deferral (R75): granted later within its slack, or DENIED. -/
def Work.defer (w : Work) (h : Nat) (r : Record) (start : LocalTime) (beaters : List Contest) (origin : Origin) :
    Work × List Task :=
  let x := r.occ
  let low := beaters.foldl (fun e c => laterOf e (w.st.guardedEnd r.owner x.profile c.rival)) start
  match w.st.search r.owner x.profile x.remaining low (plus start x.slack) with
  | some at' =>
      let shift := ticksTo start at'
      let s1 := w.st.updateOcc h (fun y => { y with state := .granted, placed := at', shift := shift })
      let s2 := if origin == .admission then s1 else s1.postDeferred r.owner h shift
      (({ w with st := s2.setNotice h }).report origin h .deferred at' shift, [])
  | none =>
      let s1 := if origin == .admission then w.st else w.st.postLost r.owner h x.k .denied
      (({ w with st := s1 }).report origin h .denied start 0, [.ended h x.k (.denied false)])

/-! ### Cuts -/

/-- The remainder search of R80, with its SUSPENDED event. None where no place is found. -/
def State.placeRemainder (s : State) (h : Nat) (r : Record) (low latest : LocalTime) : Option State :=
  match s.search r.owner r.occ.profile r.occ.remaining low latest with
  | none => none
  | some at' =>
      let s1 := s.updateOcc h (fun x =>
        { x with state := .suspended, placed := at', suspensions := x.suspensions + 1 })
      let s2 := s1.post r.owner .suspended h .none (shortfallFlags r.occ.shortfall) (low16 (r.occ.suspensions + 1))
      some (s2.setNotice h)

/-- The cut instant of an ACTIVE window (R79): its part ends; the remainder is placed, or the occurrence ends CUT. A
cut that leaves nothing to serve falls at the window's end and is that end (notes/assumptions/16). -/
def State.takeCut (s : State) (h : Nat) (cut : LocalTime) : State × Option Ending :=
  let s1 := s.endPart h cut
  match s1.record? h with
  | none => (s1, none)
  | some r =>
      let x := r.occ
      if x.remaining == 0 then (s1.postWindowEnd h .done false false false, some .done)
      else
        let final := (s1.postWindowEnd h .cut false true false, some Ending.cut)
        if x.resumable && decide (x.suspensions < 3) then
          let latest := less (x.deadline.getD cut) x.remaining
          match s1.placeRemainder h r (laterOf cut (x.resumeFloor.getD cut)) latest with
          | some s2 => (s2, none)
          | none => final
        else final

/-- Schedule a cut on the ACTIVE window for an arrival placed at a start (R78). The floor of a second cut on the same
part is the later one; the deadline of the first cut stays. At equal cut times the first arrival's flag stays
(notes/assumptions/40). -/
def State.scheduleCut (s : State) (h : Nat) (r : Record) (start : LocalTime) (len : Nat) : State :=
  let cut := laterOf s.tb.lt (less start s.arb.guard)
  let floor := plus start (len + s.arb.guard)
  let short := decide (ticksTo cut start < s.arb.guard)
  s.updateOcc h (fun x =>
    let deadline := some (x.deadline.getD (plus (x.firstRise.getD x.placed) (r.length + x.slack)))
    match x.cutAt with
    | none => { x with cutAt := some cut, shortfall := short, resumeFloor := some floor, deadline := deadline }
    | some c =>
        { x with
          cutAt := some (earlierOf c cut)
          shortfall := if before cut c then short else x.shortfall
          resumeFloor := some (laterOf (x.resumeFloor.getD floor) floor)
          deadline := deadline })

/-! ### Members an arrival displaces -/

/-- A displaced GRANTED window goes to deferral (R76). -/
def State.displace (s : State) (h : Nat) (r : Record) (guardedEnd : LocalTime) : State × List Task :=
  let x := r.occ
  let nominal := x.nominal.getD x.placed
  match s.search r.owner x.profile x.remaining (laterOf nominal guardedEnd) (plus nominal x.slack) with
  | some at' =>
      let shift := ticksTo nominal at'
      let s1 := s.updateOcc h (fun y => { y with state := .granted, placed := at', shift := shift })
      ((s1.postDeferred r.owner h shift).setNotice h, [])
  | none => (s.postLost r.owner h x.k .displaced, [.ended h x.k (.denied true)])

/-- A displaced remainder is searched for again (R81). -/
def State.displaceRemainder (s : State) (h : Nat) (r : Record) (guardedEnd : LocalTime) : State × List Task :=
  let x := r.occ
  let low := laterOf (laterOf (x.resumeFloor.getD s.tb.lt) s.tb.lt) guardedEnd
  match s.search r.owner x.profile x.remaining low (less (x.deadline.getD s.tb.lt) x.remaining) with
  | some at' =>
      let s1 := s.updateOcc h (fun y => { y with state := .suspended, placed := at' })
      ((s1.postDeferred r.owner h (ticksTo x.placed at')).setNotice h, [])
  | none => (s.postWindowEnd h .cut false true true, [.ended h x.k .cut])

/-- A call burst that gave way to a page (R73). -/
def State.yieldBurst (s : State) (h : Nat) (r : Record) : State × List Task :=
  (s.postLost r.owner h r.occ.k .yielded, [.ended h r.occ.k .yielded])

/-- One member of W, other than the ACTIVE window, already out of the timeline (R72). -/
def State.handleMember (s : State) (start : LocalTime) (o : Owner) (profile len : Nat) (yielding : Bool)
    (c : Contest) : State × List Task :=
  let guardedEnd := plus start (len + s.guardTo o profile c.rival)
  if yielding && c.isOpen && !c.won then s.yieldBurst c.handle c.rival
  else if c.rival.occ.state == .suspended then s.displaceRemainder c.handle c.rival guardedEnd
  else s.displace c.handle c.rival guardedEnd

/-- The members of W in order; each is placed, or found to have no place, before the next is taken (R72). -/
def State.handleMembers (s : State) (start : LocalTime) (o : Owner) (profile len : Nat) (yielding : Bool) :
    List Contest → State × List Task
  | [] => (s, [])
  | c :: cs =>
      let done := s.handleMember start o profile len yielding c
      let rest := done.1.handleMembers start o profile len yielding cs
      (rest.1, done.2 ++ rest.2)

/-- Take windows out of the timeline. -/
def State.withdraw (s : State) (hs : List Nat) : State :=
  hs.foldl (fun t h => t.updateOcc h (fun x => { x with state := .withdrawn, notice := none })) s

/-- A cut scheduled for the present LT is reached at once, after every other placement (R78). -/
def State.cutAtOnce (s : State) (h : Nat) : State × List Task :=
  match s.record? h with
  | none => (s, [])
  | some r =>
      if r.occ.state == .active && r.occ.cutAt == some s.tb.lt then
        let done := s.takeCut h s.tb.lt
        (done.1, match done.2 with
          | some e => [.ended h r.occ.k e]
          | none => [])
      else (s, [])

/-- The arrival is granted at its nominal start: W leaves the timeline, the arrival joins, and the members of W are
handled in order (R72). The ACTIVE member, first of the timeline, is cut; an ending of a cut reached at once is handed to
RT before those of the other members (R77; notes/assumptions/39). -/
def Work.grant (w : Work) (h : Nat) (r : Record) (start : LocalTime) (members : List Contest) (yielding : Bool)
    (origin : Origin) : Work × List Task :=
  let x := r.occ
  let standing := members.filter (fun c => !(c.rival.occ.state == .active))
  let s1 := (w.st.withdraw (standing.map (·.handle))).grantAt h start 0
  let active := members.find? (fun c => c.rival.occ.state == .active)
  let s2 := match active with
    | some c => s1.scheduleCut c.handle c.rival start x.remaining
    | none => s1
  let handled := s2.handleMembers start r.owner x.profile x.remaining yielding standing
  let cut := match active with
    | some c => handled.1.cutAtOnce c.handle
    | none => (handled.1, [])
  (({ w with st := cut.1 }).report origin h .granted start 0, cut.2 ++ handled.2)

/-- An arriving call burst that yields ends YIELDED and takes no place (R73). -/
def Work.yieldArrival (w : Work) (h : Nat) (r : Record) (start : LocalTime) (origin : Origin) : Work × List Task :=
  let s1 := if origin == .admission then w.st else w.st.postLost r.owner h r.occ.k .yielded
  (({ w with st := s1 }).report origin h .yielded start 0, [.ended h r.occ.k .yielded])

/-! ### Arbitration -/

/-- Insert a period number in ascending circular order, each once (R69). -/
def insertPeriod (p : Nat) : List Nat → List Nat
  | [] => [p]
  | q :: qs => if p == q then q :: qs else if periodBefore q p then q :: insertPeriod p qs else p :: q :: qs

/-- Pass a class's token to the owner that did not hold it (R68). -/
def State.passToken (s : State) (cls : Nat) (holder : Owner) : State :=
  { s with arb := { s.arb with tokens := s.arb.tokens.setIfInBounds cls holder.other } }

/-- The decision of R71, before the token pass: the work and tasks, and whether a yield was granted. -/
def Work.decide' (w : Work) (h : Nat) (r : Record) (start : LocalTime) (origin : Origin) (cs : List Contest) :
    (Work × List Task) × Bool :=
  let beaters := cs.filter (fun c => !c.won)
  let beaten := cs.filter (·.won)
  if beaters.any (fun c => !c.isOpen) then (w.defer h r start beaters origin, false)
  else if !beaters.isEmpty then
    let periods := beaters.foldr (fun c ps => insertPeriod c.rival.occ.k ps) []
    let answer := w.st.answerYield r.owner.other periods
    if answer.2 then (({ w with st := answer.1 }).grant h r start cs true origin, true)
    else (({ w with st := answer.1 }).defer h r start beaters origin, false)
  else if r.kind.isCall && beaten.any (·.isOpen) then
    let answer := w.st.answerYield r.owner [r.occ.k]
    if answer.2 then (({ w with st := answer.1 }).yieldArrival h r start origin, true)
    else (({ w with st := answer.1 }).grant h r start cs false origin, false)
  else (w.grant h r start cs false origin, false)

/-- The arbitration of an arrival, whole: token read, comparisons, placements, token pass (R70 to R77). The token
passes once if at least one comparison stayed decided by it (R68, R69). -/
def Work.arbitrate (w : Work) (h : Nat) (r : Record) (origin : Origin) : Work × List Task :=
  let start := r.occ.nominal.getD r.occ.placed
  let cls := w.st.classOf r.occ.level
  let holder := w.st.token cls
  let cs := w.st.contests ⟨h, r.owner, r.kind, r.occ.level⟩ r.occ.profile start r.occ.remaining
  let decision := w.decide' h r start origin cs
  let stayed := cs.any (fun c => c.decided == .token && !(decision.2 && c.isOpen))
  let done := decision.1
  (if stayed then { done.1 with st := done.1.st.passToken cls holder } else done.1, done.2)

end Sys2Proof.Machine
end

