-- ==== Sys2Proof/Machine/Reservations.lean ====
section
/-!
DEFINITION. RT at work: what follows an ending (R41), the generation of the next occurrence with its late and switch
walks (R46 to R49, R142), the members of a re-resolution (R56), an anchor expiry (R58), and the loop that takes every
task of a step, the innermost first, until none is left.
-/

namespace Sys2Proof.Machine

/-! ### Occurrences -/

/-- Bit (k mod 16) of the record's mask (R46). -/
def Record.takes (r : Record) (k : Nat) : Bool := r.mask.getLsbD (k % 16)

/-- A new current occurrence, with the record's standing values copied into it (R44, R46, R49), its bit of the mask
among them (R52). -/
def Record.freshOcc (r : Record) (k : Nat) (state : OccState) (entry : Nat) (nominal : Option LocalTime)
    (advance : Nat) : Occurrence where
  k := k
  state := state
  entry := entry
  nominal := nominal
  advance := advance
  placed := nominal.getD 0
  shift := 0
  remaining := r.length
  served := 0
  suspensions := 0
  level := r.level
  slack := r.slack
  profile := r.profile
  resumable := r.resumable
  taken := r.takes k
  firstRise := none
  cutAt := none
  shortfall := false
  resumeFloor := none
  deadline := none
  lateLoad := false
  widened := false
  notice := none

/-- The entry a record's next index resolves on, unless a pending handover rebinds it (R47). -/
def State.generationEntry (s : State) (r : Record) : Nat :=
  match r.binding with
  | .byIndex i => i
  | .followsServing => (s.serving? r.owner).getD r.occ.entry

/-! ### MISSED -/

def State.postMissed (s : State) (o : Owner) (h : Nat) (reason : Reason) (waiting : Bool) (n : Nat) : State :=
  s.post o .missed h reason (missedFlags waiting) (sat16 n)

/-- The MISSED events of a walk that stops in WAITING (R49, R142): SWITCH, then UNTIMED with the waiting flag, which
counts the late indexes and an occurrence that ended UNTIMED. -/
def State.closeWaiting (s : State) (o : Owner) (h late switched : Nat) (untimed : Bool) : State :=
  let s1 := if 0 < switched then s.postMissed o h .missedSwitch false switched else s
  s1.postMissed o h .untimed true (late + untimed.toNat)

/-- The MISSED events of a walk that does not stop in WAITING (R48, R142), and of an ending with nothing remaining
(R49): SWITCH, then UNTIMED without the waiting flag (notes/assumptions/19), then LATE. -/
def State.closeWalk (s : State) (o : Owner) (h late switched : Nat) (untimed : Bool) : State :=
  let s1 := if 0 < switched then s.postMissed o h .missedSwitch false switched else s
  let s2 := if untimed then s1.postMissed o h .untimed false 1 else s1
  if 0 < late then s2.postMissed o h .late false late else s2

/-! ### Generation -/

/-- One index of a generation walk (R46 to R49, R142). The current occurrence holds the index before, with the nominal
start and advance that are the chain's reference, and has left the timeline. -/
def Work.walkStep (w : Work) (h late switched : Nat) (untimed : Bool) : Work × List Task :=
  match w.st.record? h with
  | none => (w, [])
  | some r =>
      if r.occ.state == .withdrawn then
        let s := w.st
        let k := (r.occ.k + 1) % 65536
        let r1 := { r with remaining := r.remaining.map (· - 1) }
        let p := s.resolveFor r.owner r.binding (s.generationEntry r) (r.start.atIndex k (r.period.getD 0))
          (r.occ.nominal.getD s.tb.lt) r.kind.isTx r.occ.advance
        let ending := r1.remaining == some 0
        match p with
        | .untimed entry =>
            let s1 := s.setRecord h (some { r1 with occ := r1.freshOcc k .waiting entry none 0 })
            ({ w with st := s1.closeWaiting r.owner h late switched untimed }, [])
        | .switched entry lt adv =>
            let r2 := { r1 with occ := r1.freshOcc k .withdrawn entry (some lt) adv }
            if r1.takes k then
              let r3 := r2.count' (.missed .switch)
              let w1 := ({ w with st := s.setRecord h (some r3) }).inform h r3 k (.missed .switch)
              if ending then ((w1.map (·.closeWalk r.owner h late (switched + 1) untimed)).exhaust h (.missed .switch), [])
              else (w1, [.walk h late (switched + 1) untimed])
            else
              let w1 := { w with st := s.setRecord h (some r2) }
              if ending then ((w1.map (·.closeWalk r.owner h late switched untimed)).exhaust h (.missed .switch), [])
              else (w1, [.walk h late switched untimed])
        | .found entry lt adv =>
            let r2 := { r1 with occ := r1.freshOcc k .withdrawn entry (some lt) adv }
            if r1.takes k then
              if s.farEnough lt then
                let s1 := s.setRecord h (some r2)
                ({ w with st := s1.closeWalk r.owner h late switched untimed }, [.offer h k .generated])
              else
                let r3 := r2.count' (.missed .late)
                let w1 := ({ w with st := s.setRecord h (some r3) }).inform h r3 k (.missed .late)
                if ending then
                  ((w1.map (·.closeWalk r.owner h (late + 1) switched untimed)).exhaust h (.missed .late), [])
                else (w1, [.walk h (late + 1) switched untimed])
            else
              let w1 := { w with st := s.setRecord h (some r2) }
              if ending then ((w1.map (·.closeWalk r.owner h late switched untimed)).exhaust h (.missed .late), [])
              else (w1, [.walk h late switched untimed])
      else (w, [])

/-! ### Endings -/

/-- RT takes up an ending (R41): the counters, SU, then the record's end or the generation of its next occurrence. An
occurrence that missed is the first index of its own walk (R48, R142; notes/assumptions/19). -/
def Work.takeEnding (w : Work) (h k : Nat) (e : Ending) : Work × List Task :=
  match w.st.record? h with
  | none => (w, [])
  | some r =>
      if r.occ.k == k && r.occ.state == .withdrawn then
        let r1 := r.count' e
        let w1 := ({ w with st := w.st.setRecord h (some r1) }).inform h r1 k e
        let late := if e == .missed .late then 1 else 0
        let switched := if e == .missed .switch then 1 else 0
        let untimed := e == .missed .untimed
        if r1.remaining == some 0 then ((w1.map (·.closeWalk r.owner h late switched untimed)).exhaust h e, [])
        else (w1, [.walk h late switched untimed])
      else (w, [])

/-! ### Re-resolution -/

/-- One member of a re-resolution, in its turn (step 3 of R56, R141). A WAITING index is skipped by the mask bit it was
generated with: a mask amended since takes effect at the next index (R49, R52). -/
def Work.takeMember (w : Work) (h k : Nat) (p : Placement) : Work × List Task :=
  match w.st.record? h with
  | none => (w, [])
  | some r =>
      if r.occ.k == k && (r.occ.state == .withdrawn || r.occ.state == .waiting) then
        let skipped := r.occ.state == .waiting && !r.occ.taken
        let resolved := fun (entry : Nat) (nominal : Option LocalTime) (adv : Nat) =>
          w.st.setRecord h (some
            { r with
              occ := { r.occ with
                state := .withdrawn, entry := entry, nominal := nominal, advance := adv,
                placed := nominal.getD r.occ.placed, shift := 0 } })
        let passOn := fun (s : State) =>
          if r.remaining == some 0 then ((({ w with st := s }) : Work).exhaust h (.missed .late), [])
          else (({ w with st := s } : Work), [Task.walk h 0 0 false])
        match p with
        | .untimed entry =>
            ({ w with st := resolved entry r.occ.nominal r.occ.advance, missed := w.missed + 1 },
              [.ended h k (.missed .untimed)])
        | .switched entry lt adv =>
            if skipped then passOn (resolved entry (some lt) adv)
            else
              ({ w with st := resolved entry (some lt) adv, missed := w.missed + 1 },
                [.ended h k (.missed .switch)])
        | .found entry lt adv =>
            if skipped then passOn (resolved entry (some lt) adv)
            else if w.st.farEnough lt then
              ({ w with st := resolved entry (some lt) adv }, [.offer h k .member])
            else
              ({ w with st := resolved entry (some lt) adv, missed := w.missed + 1 },
                [.ended h k (.missed .late)])
      else (w, [])

/-- A record whose resolving entry has lost its anchor (R58). -/
def Work.takeExpiry (w : Work) (h entry : Nat) : Work × List Task :=
  match w.st.record? h with
  | none => (w, [])
  | some r =>
      if r.occ.entry == entry && (r.occ.state == .granted || r.occ.state == .suspended) then
        let s1 := if r.occ.state == .suspended then w.st.postWindowEnd h .untimed false false true else w.st
        ({ w with st := s1.withdraw [h], missed := w.missed + 1 }, [.ended h r.occ.k (.missed .untimed)])
      else (w, [])

/-! ### The loop -/

/-- Take one task; the tasks it sets off come before those already waiting (R77). -/
def doTask (t : Task) (w : Work) : Work × List Task :=
  match t with
  | .offer h k origin =>
      match w.st.record? h with
      | none => (w, [])
      | some r => if r.occ.k == k && r.occ.state == .withdrawn then w.arbitrate h r origin else (w, [])
  | .ended h k e => w.takeEnding h k e
  | .walk h late switched untimed => w.walkStep h late switched untimed
  | .member h k p => w.takeMember h k p
  | .expire h entry => w.takeExpiry h entry

/-- Take tasks until none is left; WC takes up ARB's changes after each (R86). None where the bound is exceeded. -/
def runTasks : Nat → List Task → Work → Option Work
  | _, [], w => some w
  | 0, _ :: _, _ => none
  | left + 1, t :: ts, w =>
      let done := doTask t w
      runTasks left (done.2 ++ ts) (done.1.map (·.refreshWindows))

/-- Take the tasks of one step. -/
def Work.run (w : Work) (ts : List Task) : Option Work := runTasks Config.cascadeLimit ts w

/-! ### Orders for a re-resolution -/

/-- A resolved member: handle, index and where it resolved. -/
structure Member where
  handle : Nat
  k : Nat
  placement : Placement
  deriving DecidableEq, Repr

/-- The order of members (step 2 of R56): untimed ones first, in handle order; the others by new nominal start, the
lower handle first at equal starts. -/
def Placement.precedes (p q : Placement) : Bool :=
  match p, q with
  | .untimed _, .untimed _ => false
  | .untimed _, .found _ _ _ => true
  | .untimed _, .switched _ _ _ => true
  | .found _ _ _, .untimed _ => false
  | .switched _ _ _, .untimed _ => false
  | .found _ a _, .found _ b _ => before a b
  | .found _ a _, .switched _ b _ => before a b
  | .switched _ a _, .found _ b _ => before a b
  | .switched _ a _, .switched _ b _ => before a b

def insertMember (m : Member) : List Member → List Member
  | [] => [m]
  | n :: ns => if n.placement.precedes m.placement then n :: insertMember m ns else m :: n :: ns

/-- Resolve a member's current index with the present LT as reference (step 2 of R56). `named` gives the entry the
order names for a follows-serving record. A member of a rebinding whose source result falls before Ts stays on the source, as
step 2 of R140 has it (notes/assumptions/52). -/
def State.resolveMember (s : State) (named : Record → Nat) (x : Nat × Record) : Member :=
  { handle := x.1
    k := x.2.occ.k
    placement := s.resolveFor x.2.owner x.2.binding (named x.2) (x.2.start.atIndex x.2.occ.k (x.2.period.getD 0))
      s.tb.lt x.2.kind.isTx 0 }

/-- The tasks of a re-resolution, after its GRANTED members have been withdrawn (R56). -/
def State.reresolve (s : State) (members : List (Nat × Record)) (named : Record → Nat) : State × List Task :=
  let granted := members.filter (fun x => x.2.occ.state == .granted)
  let s1 := (s.withdraw (granted.map (·.1))).refreshWindows
  let ordered := (members.map (s1.resolveMember named)).foldr insertMember []
  (s1, ordered.map (fun m => .member m.handle m.k m.placement))

/-- The members of an order on an entry: GRANTED or WAITING with that resolving entry (R55). -/
def State.membersOn (s : State) (entry : Nat) : List (Nat × Record) :=
  s.recordList.filter (fun x =>
    x.2.occ.entry == entry && (x.2.occ.state == .granted || x.2.occ.state == .waiting))

end Sys2Proof.Machine
end

