-- ==== Sys2Proof/Machine/Sleep.lean ====
section
/-!
DEFINITION. SC's arithmetic and conditions: the entry condition (R156), the wake target and span (R158, R159), the
sleep advance (R161), the start of a calibration (R170), and what every step settles at its end: WC's next window,
an activation that falls upon the end of a part (R93), the span-short mark (R156) and an abandoned entry (R157).
-/

namespace Sys2Proof.Machine

/-! ### The entry condition -/

/-- A port does not stand against sleep: it is disabled, or it votes ALLOW and no command executes on it (R155, R156,
R180). -/
def PortState.consents (x : PortState) : Bool :=
  (!x.enabled || x.vote == some .allow)
    && match x.slot with
      | .pending _ => false
      | .empty => true
      | .done _ _ _ => true
      | .disabled => true

/-- The entry condition of R156. -/
def State.entryCondition (s : State) : Bool :=
  s.pi.subA.consents && s.pi.subB.consents && s.pi.policy.consents && s.active?.isNone && s.tb.run.isNone

/-! ### Wake target and span -/

/-- A candidate for the wake target (R158). -/
structure Target where
  kind : TargetKind
  at' : LocalTime
  lead : Nat
  deriving DecidableEq, Repr

/-- The anchor expiry instants of CT. -/
def State.expiries (s : State) : List LocalTime :=
  s.cellList.filterMap (fun x => x.2.anchor.map Anchor.expiry)

/-- The switch instants of HU. -/
def State.switches (s : State) : List LocalTime :=
  [s.hu.records.a, s.hu.records.b].filterMap (fun x => x.map (·.ts))

/-- The revert close instants of HU. -/
def State.closes (s : State) : List LocalTime :=
  [s.hu.windows.a, s.hu.windows.b].filterMap (fun x => x.map (·.closeLt))

/-- The first window of the timeline and its placed start. -/
def State.firstWindow (s : State) : Option (Nat × LocalTime) :=
  s.timeline.head?.map (fun x => (x.1, x.2.occ.placed))

/-- The candidates, in the order of the table of R158. -/
def State.targets (s : State) : List Target :=
  (match s.firstWindow with
    | some w => [⟨.window, w.2, s.sc.params.lead⟩]
    | none => [])
  ++ s.expiries.map (⟨.anchorExpiry, ·, 0⟩)
  ++ s.switches.map (⟨.switch, ·, 0⟩)
  ++ s.closes.map (⟨.revertClose, ·, 0⟩)

/-- The candidate whose time less its lead is earliest; the first of the list stands at equal times, so a window is
the target before an expiry (R158; notes/assumptions/23). -/
def earliestTarget : List Target → Option Target
  | [] => none
  | t :: ts =>
      some (ts.foldl (fun e u => if before (less u.at' u.lead) (less e.at' e.lead) then u else e) t)

/-- u: 500 ppm while uncalibrated, else the SET SLEEP value (R159). -/
def State.uncertainty (s : State) : Nat := if s.tb.uncalibrated then 500 else s.sc.params.uncertainty

/-- A margin: the smaller of 24,000 and the length × u / 10^6 rounded up (R159, R161). -/
def marginOf (len u : Nat) : Nat := min 24000 (ceilDiv (len * u) 1000000)

/-- Steps 5 and 6 of R159 for a span in slow periods: the length of the sleep and its clamped flag, or no sleep. -/
def State.limitSpan (s : State) (n : Nat) : Option (Nat × Bool) :=
  if n < max s.sc.params.spanMin (s.sc.params.warmUp + 2) then none
  else if s.sc.params.spanMax < n then some (s.sc.params.spanMax, true)
  else some (n, false)

/-- The sleep in hand, were it fixed now (R160). -/
def State.handOf (s : State) (span margin : Nat) (kind : TargetKind) (noTarget clamped : Bool) : SleepHand :=
  ⟨s.tb.lt, span, margin, kind, noTarget, clamped, s.sc.params.warmUp, s.uncertainty, s.tb.ratio, s.tb.uncalibrated⟩

/-- The computation at an entry edge candidate: the sleep in hand, or no sleep (R158, R159). -/
def State.planSleep (s : State) : Option SleepHand :=
  match earliestTarget s.targets with
  | none => (s.limitSpan s.sc.params.spanMax).map (fun n => s.handOf n.1 0 .none true n.2)
  | some t =>
      if before s.tb.lt t.at' then
        let distance := ticksTo s.tb.lt t.at'
        let margin := marginOf distance s.uncertainty
        if distance ≤ t.lead + margin then none
        else
          let span := distance - t.lead - margin
          if span * 65536 < s.tb.residue then none
          else
            (s.limitSpan ((span * 65536 - s.tb.residue) / s.tb.ratio)).map
              (fun n => s.handOf n.1 margin t.kind false n.2)
      else none

/-! ### The advance and calibration -/

/-- The sleep advance for a wake count (R161). -/
def State.sleepAdvance (s : State) (hand : SleepHand) (count : Nat) : Nat :=
  (count * hand.ratio + s.tb.residue) / 65536

/-- TB advances LT and carries the residue (R161). -/
def State.advanceLt (s : State) (hand : SleepHand) (count : Nat) : State :=
  { s with
    tb := { s.tb with
      lt := plus hand.entryLt (s.sleepAdvance hand count)
      residue := (count * hand.ratio + s.tb.residue) % 65536 } }

/-- TB starts a calibration with the n in force, and wakes since calibration becomes 0 (R170, R171). -/
def State.startCalibration (s : State) (auto : Bool) : State :=
  { s with
    tb := { s.tb with run := some ⟨s.sc.params.exponent, .waitingEdge, 0, 0, auto⟩ }
    sc := { s.sc with wakes := 0 } }

def State.clearSpanShort (s : State) : State := { s with sc := { s.sc with spanShort := false } }

/-! ### The end of a step -/

/-- SC at the end of a step: the span-short mark is cleared when the entry condition is false, when the first window
or its placed start has changed, or when an instant of CT or HU has been set or removed (R156); an entry whose
condition has turned false is abandoned (R157). -/
def State.settleSleep (before' after : State) : State :=
  let holds := after.entryCondition
  let same := before'.firstWindow == after.firstWindow && before'.expiries == after.expiries
    && before'.switches == after.switches && before'.closes == after.closes
  { after with
    sc := { after.sc with
      spanShort := after.sc.spanShort && holds && same
      state := if after.sc.state == .entering && !holds then .awake else after.sc.state } }

/-- WC at the end of a step: it takes up ARB's changes (R86), and where the step has ended the ACTIVE part, a next
window whose planned rise has been reached is activated upon that end (R93; notes/assumptions/14). -/
def State.settleWindows (before' after : State) : State :=
  let s1 := after.refreshWindows
  if before'.active?.isSome then
    match s1.riseDue with
    | some nx => s1.activate nx
    | none => s1
  else s1

/-- What every step settles at its end. -/
def State.settle (before' after : State) : State :=
  State.settleSleep before' (State.settleWindows before' after)

end Sys2Proof.Machine
end

