-- ==== Sys2Proof/Machine/Ports.lean ====
section
/-!
DEFINITION. PI: the response frame and its copy (R176, R178), the judging and taking of a frame (R177, R179), the
wake-up a frame causes (R163), the completion of a command (R180), and the form every command row runs in.
-/

namespace Sys2Proof.Machine

/-! ### Responses -/

/-- The response frame of a port (R178). -/
def PortState.response (x : PortState) : List Byte :=
  let flags := portFlagsByte x.flags (!x.queue.isEmpty)
  match x.slot with
  | .empty => [0, 0, 0, flags, 0]
  | .pending n => [1, BitVec.ofNat 8 n, 0, flags, 0]
  | .done n st results =>
      [2, BitVec.ofNat 8 n, BitVec.ofNat 8 st.code, flags, BitVec.ofNat 8 results.length] ++ results
  | .disabled => [3, 0, 0, 0, 0]

/-- ATTN: high while the port is enabled and its queue holds a record (R184). -/
def PortState.attn (x : PortState) : Bool := x.enabled && !x.queue.isEmpty

/-- The i-th bit of a transaction's copy, from 0; zeros once the copy is exhausted (R176). -/
def Transaction.sdo (t : Transaction) (i : Nat) : Bool := ((bitsOfBytes t.copy)[i]?).getD false

/-- SDO of a port at the i-th bit of its transaction; none while CS_N is high, the pin at high impedance (R176). While
RESET_N is low every transaction shifts out zeros, one opened before its fall too (R189; notes/assumptions/30). -/
def State.sdo (s : State) (p : Port) (i : Nat) : Option Bool :=
  (s.port p).transaction.map (fun t => s.resetN && t.sdo i)

/-- The copy taken at the fall of CS_N; zeros while RESET_N is low (R176, R189). -/
def State.openTransaction (s : State) (p : Port) : State :=
  let x := s.port p
  let isDone := match x.slot with
    | .done _ _ _ => true
    | .empty => false
    | .pending _ => false
    | .disabled => false
  s.setPort p
    { x with
      transaction := some ⟨x.enabled && s.resetN, if s.resetN then x.response else [], x.flags, isDone && s.resetN⟩
      overflowAnew := false }

/-- The flags that a DONE copy showed set are cleared once four bytes have gone out; one set anew after the fall is
kept (R176; notes/assumptions/13). -/
def PortState.clearShown (x : PortState) (t : Transaction) (bits : Nat) : PortState :=
  if t.copyDone && decide (32 ≤ bits) then
    { x with
      flags :=
        { collision := x.flags.collision && !t.shown.collision
          frameError := x.flags.frameError && !t.shown.frameError
          overflow := x.flags.overflow && (!t.shown.overflow || x.overflowAnew) } }
  else x

/-! ### Frames -/

/-- What PI makes of the bits received (R177). -/
inductive Judgement where
  | nothing
  | malformed
  | poll
  | frame (number : Nat) (params : List Byte)
  deriving DecidableEq, Repr

/-- The table of R177. Zero bytes beyond the sixteen bits of a poll are malformed by its second row
(notes/assumptions/46). -/
def judge (bits : List Bool) : Judgement :=
  match bits with
  | [] => .nothing
  | _ :: _ =>
      match bytesOfBits bits with
      | number :: len :: params =>
          if bits.length % 8 == 0 && decide (len.toNat ≤ 96) && bits.length == 8 * (2 + len.toNat) then
            if number == 0 then (if len == 0 then .poll else .malformed) else .frame number.toNat params
          else .malformed
      | [_] => .malformed
      | [] => .malformed

/-- A command completes: its slot becomes DONE and its buffer is free (R180). A slot that the command itself has made
anything but PENDING stays so. -/
def State.complete (s : State) (p : Port) (st : Status) (results : List Byte) : State :=
  let x := s.port p
  match x.slot with
  | .pending n => s.setPort p { x with slot := .done n st results, buffer := none }
  | .empty => s
  | .done _ _ _ => s
  | .disabled => s

/-- PI's checks of the frame a port holds: a refusal completes it at once, otherwise it waits for its block (R179). -/
def State.checkFrame (s : State) (p : Port) : State :=
  match (s.port p).buffer with
  | none => s
  | some f =>
      match parseFrame p f.number f.params with
      | .command _ => s
      | .refused st => s.complete p st []

/-- SC as a command frame finds it: an entry is abandoned (R157), a sleep is broken off with an early wake count
(R163), and the span-short mark is cleared, since a command executes (R156). -/
def State.wakeFor (s : State) (p : Port) : State :=
  match s.sc.state with
  | .awake => s.clearSpanShort
  | .entering => { s with sc := { s.sc with state := .awake, spanShort := false } }
  | .asleep =>
      match s.sc.hand with
      | none => s
      | some hand =>
          { s with
            sc := { s.sc with
              state := .waking, refEn := true, early := some (min (s.sc.counter + hand.warmUp) hand.span, p) } }
  | .waking => s

/-- PI takes a command frame (R179). -/
def State.takeFrame (s : State) (p : Port) (number : Nat) (params : List Byte) : State :=
  let x := s.port p
  let taken :=
    let s1 := s.setPort p { x with slot := .pending number, buffer := some ⟨number, params, s.sc.state⟩ }
    let s2 := s1.wakeFor p
    if s.sc.state == .awake || s.sc.state == .entering then s2.checkFrame p else s2
  match x.slot with
  | .pending _ => s.setPort p { x with flags := { x.flags with collision := true } }
  | .empty => taken
  | .done _ _ _ => taken
  | .disabled => taken

/-! ### Commands -/

/-- The command a port's buffer holds, if PI's checks pass (R179). -/
def State.heldCommand (s : State) (p : Port) : Option Instr :=
  match (s.port p).buffer with
  | none => none
  | some f =>
      match parseFrame p f.number f.params with
      | .command i => some i
      | .refused _ => none

/-- A command executes when the part is awake, its port's slot is PENDING and the frame held there is exactly that
command (R17, R179, R180; notes/assumptions/4). -/
def State.ready (s : State) (p : Port) (i : Instr) : Bool :=
  s.sc.state == .awake
    && (match (s.port p).slot with
      | .pending _ => true
      | .empty => false
      | .done _ _ _ => false
      | .disabled => false)
    && s.heldCommand p == some i

/-- What a command's block answers: the state after its effects, its status and its results. -/
abbrev Answer := State × Status × List Byte

/-- An answer, or none where the command's cascade exceeded its bound. -/
abbrev Reply := Option Answer

/-- A refusal changes no state of any block and carries no results (R180). -/
def refuse (s : State) (st : Status) : Answer := (s, st, [])

def accept (s : State) (results : List Byte) : Answer := (s, .ok, results)

/-- The form of a command row that touches neither the timeline nor an instant: where the command is not ready,
nothing happens (notes/assumptions/2); where it is, its block acts and the slot becomes DONE. -/
def State.command (s : State) (p : Port) (i : Instr) (body : State → Answer) : Host.Outcome State Fault Refusal :=
  if s.ready p i then .next ((body s).1.complete p (body s).2.1 (body s).2.2) else .next s

/-- The form of a command row that may change the timeline or an instant: as `State.command`, and an accepted one
settles the step. -/
def State.planCommand (s : State) (p : Port) (i : Instr) (body : State → Reply) :
    Host.Outcome State Fault Refusal :=
  if s.ready p i then
    match body s with
    | some (t, st, results) =>
        if st == .ok then .next (State.settle s (t.complete p st results)) else .next (t.complete p st results)
    | none => .fault .cascadeUnfinished
  else .next s

/-- The form of every other row: where its condition does not hold, nothing happens (notes/assumptions/2). -/
def State.event (s : State) (result : Option State) : Host.Outcome State Fault Refusal :=
  match result with
  | some t => .next (State.settle s t)
  | none => .next s

/-- The form of a row whose effects may set off a cascade. -/
def State.cascade (s : State) (due : Bool) (result : Option State) : Host.Outcome State Fault Refusal :=
  if due then
    match result with
    | some t => .next (State.settle s t)
    | none => .fault .cascadeUnfinished
  else .next s

/-- The part takes steps of its own only while LT counts; in ASLEEP and WAKING every instant waits for the wake
(R3, R160, R184). -/
def State.counting (s : State) : Bool := s.sc.state == .awake || s.sc.state == .entering

/-- The owner of a command is the subscription of its port; from POLICY a SUB command is refused (section 3.4, R179). -/
def withOwner (p : Port) (s : State) (body : Owner → Answer) : Answer :=
  match p.owner? with
  | some o => body o
  | none => refuse s .wrongPort

/-- As `withOwner`, for a command whose effects may set off a cascade. -/
def withOwnerReply (p : Port) (s : State) (body : Owner → Reply) : Reply :=
  match p.owner? with
  | some o => body o
  | none => some (refuse s .wrongPort)

end Sys2Proof.Machine
end

