-- ==== Sys2Proof/Machine/Resets.lean ====
section
/-!
DEFINITION. The three kinds of reset (section 3.6 of the scope): power-on reset, chip reset, and the port reset of an
owner, each gathering the reset tables of the chapters (R2, R16, R37, R60, R85, R100, R118, R134, R153, R165, R168,
R175, R190).
-/

namespace Sys2Proof.Machine

/-- Power-on reset: the reset state, with the model's own queue and counter of free values kept. -/
def State.powerOn (s : State) : State := { State.reset with free := s.free, pending := s.pending }

/-- An emptied capture slot (R15, R16). Its captured LT stays, at a chip or port reset too, where R16 states none
(notes/assumptions/50). -/
def Capture.emptied (c : Capture) : Capture := { c with present := false, overrun := false }

/-- Before a chip reset that finds the part ASLEEP or WAKING, LT is advanced by the slow count reached and the last
sleep record is written with W_pending 0 and no reason (R2, R165, R167). -/
def State.leaveSleep (s : State) : State :=
  match s.sc.state, s.sc.hand with
  | .asleep, some hand | .waking, some hand =>
      { s.advanceLt hand s.sc.counter with
        sc := { s.sc with
          last := ⟨hand.entryLt, hand.span, hand.clamped, hand.noTarget, hand.kind, s.sc.counter,
            s.sleepAdvance hand s.sc.counter, 0, .none, 0⟩ } }
  | _, _ => s

/-- What a chip reset leaves of the calibration: a run is aborted (R175). -/
def State.abortCalibration (s : State) : CalRecord :=
  match s.tb.run with
  | none => s.tb.lastCal
  | some run => ⟨.aborted, run.exponent, 0, 0, 0, s.tb.lt, run.auto⟩

/-- A port after chip reset, its transaction still under way where CS_N is low (R190). -/
def PortState.afterReset (x fresh : PortState) : PortState := { fresh with transaction := x.transaction }

/-- The chip reset (R189 and every chapter's table); a CAL_ABORTED follows the emptying of POLICY's queue (R175). -/
def State.chipReset (s : State) : State :=
  let s0 := s.leaveSleep
  let t : State :=
    { State.reset with
      tb :=
        { lt := s0.tb.lt
          captures := ⟨s0.tb.captures.a.emptied, s0.tb.captures.b.emptied⟩
          ratio := s0.tb.ratio
          uncalibrated := s0.tb.uncalibrated
          residue := s0.tb.residue
          run := none
          lastCal := s0.abortCalibration }
      sc := { State.reset.sc with last := s0.sc.last }
      pi :=
        { subA := s.pi.subA.afterReset State.reset.pi.subA
          subB := s.pi.subB.afterReset State.reset.pi.subB
          policy := s.pi.policy.afterReset State.reset.pi.policy }
      resetN := s.resetN
      free := s.free
      pending := s.pending }
  match s.tb.run with
  | none => t
  | some run => t.postPort .policy .calAborted run.exponent .none (calFlags false run.auto) 0

/-- WC at a port reset of an owner (R92, R100): a next window of the other owner keeps a READY load only where last
loaded still names its profile; any other is decided afresh. -/
def WindowController.portReset (wc : WindowController) (o : Owner) (nextOwner : Option (Owner × Nat))
    (ended : Option LocalTime) : WindowController :=
  let kept := wc.lastLoaded.filter (fun x => !(x.1 == o))
  { wc with
    profiles := wc.profiles.set o (Vector.replicate 16 ⟨0, 0, 0, 0⟩)
    lastLoaded := kept
    writtenSince := if kept.isNone then false else wc.writtenSince
    load := wc.load.map (fun l => if l.owner == o then { l with orphaned := true } else l)
    next := wc.next.filter (fun nx => nx.load == .ready && kept.isSome && kept == nextOwner)
    lastEnd := if ended.isSome then ended else wc.lastEnd
    rxEn := wc.rxEn && ended.isNone
    txEn := wc.txEn && ended.isNone }

/-- The port reset of an owner in every block but PI (R16, R37, R60, R85, R100, R118, R134, R153). -/
def State.portReset (s : State) (o : Owner) : State :=
  let ended := match s.active? with
    | some (_, r) => if r.owner == o then some s.tb.lt else none
    | none => none
  let nextOwner := s.nextUp?.map (fun x => (x.2.owner, x.2.occ.profile))
  { s with
    tb := { s.tb with captures := s.tb.captures.set o (s.tb.captures.get o).emptied }
    ct :=
      { cells := mapTable s.ct.cells (fun c => c.filter (fun x => !(x.owner == o)))
        triggers := s.ct.triggers.set o ⟨6, 4⟩ }
    rt := { records := mapTable s.rt.records (fun r => r.filter (fun x => !(x.owner == o))) }
    wc := s.wc.portReset o nextOwner ended
    su :=
      { calls := s.su.calls.set o none
        exchanges := mapTable s.su.exchanges (fun e => e.filter (fun x => !(x.owner == o))) }
    hu := { records := s.hu.records.set o none, windows := s.hu.windows.set o none } }

end Sys2Proof.Machine
end

