-- ==== Sys2Proof/Machine/TimebaseCommands.lean ====
section
/-!
DEFINITION. The commands of chapter 1: READ TIME (R17) and RELEASE CAPTURE (R15).
-/

namespace Sys2Proof.Machine

/-- The 14 bytes of READ TIME (R17). -/
def State.timeResult (s : State) (arrival : SleepState) : List Byte :=
  ltBytes s.tb.lt ++ bytesOfNat 4 s.tb.ratio ++ bytesOfNat 2 s.tb.residue
    ++ [readTimeFlags s.tb.uncalibrated s.tb.run.isSome] ++ bytesOfNat 1 arrival.code

/-- The sleep state in which a port's frame found SC (R17). -/
def State.arrival (s : State) (p : Port) : SleepState :=
  match (s.port p).buffer with
  | some f => f.arrival
  | none => .awake

/-- READ TIME (R17). -/
def execReadTime (p : Port) (s : State) : Host.Outcome State Fault Refusal :=
  s.command p (.readTime p) (fun t => accept t (t.timeResult (t.arrival p)))

/-- The capture slot as RELEASE CAPTURE reports it (R15). -/
def Capture.result (c : Capture) : List Byte :=
  flagByte c.present ++ ltBytes (if c.present then c.lt else 0) ++ flagByte c.overrun

def State.emptyCapture (s : State) (o : Owner) : State :=
  { s with tb := { s.tb with captures := s.tb.captures.set o (s.tb.captures.get o).emptied } }

/-- RELEASE CAPTURE (R15). -/
def execReleaseCapture (p : Port) (s : State) : Host.Outcome State Fault Refusal :=
  s.command p (.releaseCapture p) (fun t =>
    withOwner p t (fun o => accept (t.emptyCapture o) (t.tb.captures.get o).result))

end Sys2Proof.Machine
end

