-- ==== Sys2Proof/Machine/CellCommands.lean ====
section
/-!
DEFINITION. The commands of chapter 2: the cell entries (R19 to R24), anchors (R26 to R29) and measurement (R32 to R36).
-/

namespace Sys2Proof.Machine

/-- The entry of an index for its owner: BAD_PARAM above 23, UNKNOWN for a FREE entry, NOT_OWNER for the other
owner's (the order of R20, R22, R23). -/
def State.ownCell (s : State) (o : Owner) (i : Nat) : Except Status Cell :=
  if 23 < i then .error .badParam
  else
    match s.cell? i with
    | none => .error .unknown
    | some c => if c.owner == o then .ok c else .error .notOwner

/-! ### ADD CELL, REMOVE CELL, READ CELL -/

/-- ADD CELL's checks and effect (R19). -/
def State.addCell (s : State) (o : Owner) (channel code : Nat) : Answer :=
  let own := s.cellList.filter (fun x => x.2.owner == o)
  if 1023 < code then refuse s .badParam
  else if own.any (fun x => x.2.channel == channel && x.2.code == code) then refuse s .duplicate
  else if 16 ≤ own.length then refuse s .quota
  else
    match lowestFree s.ct.cells with
    | none => refuse s .tableFull
    | some i =>
        accept (s.setCell i (some ⟨o, .neighbour, channel, code, none, 0, none, 0, false, 0⟩)) (bytesOfNat 1 i)

/-- ADD CELL (R19). -/
def execAddCell (p : Port) (channel code : Nat) (s : State) : Host.Outcome State Fault Refusal :=
  s.command p (.addCell p channel code) (fun t => withOwner p t (fun o => t.addCell o channel code))

/-- The entry is the target of the owner's pending handover (R20). -/
def State.isTarget (s : State) (o : Owner) (i : Nat) : Bool :=
  match s.handover? o with
  | some ho => ho.target == i
  | none => false

/-- REMOVE CELL's checks and effect (R20). -/
def State.removeCell (s : State) (o : Owner) (i : Nat) : Answer :=
  match s.ownCell o i with
  | .error st => refuse s st
  | .ok c =>
      if c.state == .neighbour && c.refCount == 0 && !s.isTarget o i then accept (s.setCell i none) []
      else refuse s .inUse

/-- REMOVE CELL (R20). -/
def execRemoveCell (p : Port) (index : Nat) (s : State) : Host.Outcome State Fault Refusal :=
  s.command p (.removeCell p index) (fun t => withOwner p t (fun o => t.removeCell o index))

/-- The result of READ CELL, in the order of R22; an absent anchor or level reads as zero. -/
def Cell.result (c : Cell) : List Byte :=
  bytesOfNat 1 c.state.code ++ bytesOfNat 2 c.channel ++ bytesOfNat 2 c.code
    ++ (match c.anchor with
      | some a =>
          flagByte true ++ ltBytes a.lt ++ bytesOfNat 2 a.frame ++ bytesOfInt 3 a.drift ++ flagByte a.clamped
            ++ ltBytes a.expiry
      | none => bytesOfNat 19 0)
    ++ bytesOfNat 2 c.advance
    ++ (match c.level with
      | some l => flagByte true ++ bytesOfInt 2 l
      | none => bytesOfNat 3 0)
    ++ bytesOfNat 1 c.triggerCount ++ flagByte c.candidate ++ bytesOfNat 1 c.refCount

/-- READ CELL (R22). -/
def execReadCell (p : Port) (index : Nat) (s : State) : Host.Outcome State Fault Refusal :=
  s.command p (.readCell p index) (fun t =>
    withOwner p t (fun o =>
      match t.ownCell o index with
      | .error st => refuse t st
      | .ok c => accept t c.result))

/-! ### The serving designation -/

/-- The trigger counts and candidate flags of an owner's entries are cleared (R25). -/
def State.clearTriggers (s : State) (o : Owner) : State :=
  { s with
    ct := { s.ct with
      cells := mapTable s.ct.cells (fun c =>
        c.map (fun x => if x.owner == o then { x with triggerCount := 0, candidate := false } else x)) } }

def State.setCellState (s : State) (i : Nat) (x : CellState) : State := s.updateCell i (fun c => { c with state := x })

/-- SET SERVING's checks and effect (R23, R25). -/
def State.setServing (s : State) (o : Owner) (i : Nat) : Answer :=
  match s.ownCell o i with
  | .error st => refuse s st
  | .ok c =>
      if !(c.state == .neighbour) || (s.serving? o).isSome || (s.handover? o).isSome then refuse s .state
      else if c.anchor.isNone then refuse s .notTimed
      else accept ((s.setCellState i .serving).clearTriggers o) []

/-- SET SERVING (R23). -/
def execSetServing (p : Port) (index : Nat) (s : State) : Host.Outcome State Fault Refusal :=
  s.command p (.setServing p index) (fun t => withOwner p t (fun o => t.setServing o index))

/-- A plan of the owner rests on its SERVING entry (the IN_USE list of R24). -/
def State.servingInUse (s : State) (o : Owner) : Bool :=
  s.recordList.any (fun x => x.2.owner == o && x.2.binding == .followsServing)
    || (s.call? o).isSome || s.exchangeList.any (fun x => x.2.owner == o)
    || (s.handover? o).isSome || (s.revert? o).isSome

/-- CLEAR SERVING's checks and effect (R24, R25). -/
def State.clearServing (s : State) (o : Owner) : Answer :=
  match s.serving? o with
  | none => refuse s .notServing
  | some i =>
      if s.servingInUse o then refuse s .inUse
      else accept ((s.setCellState i .neighbour).clearTriggers o) []

/-- CLEAR SERVING (R24). -/
def execClearServing (p : Port) (s : State) : Host.Outcome State Fault Refusal :=
  s.command p (.clearServing p) (fun t => withOwner p t (fun o => t.clearServing o))

/-! ### TIME CELL -/

/-- The instant's LT lies within its reach of the present LT (R26). -/
def State.withinReach (s : State) (capture : Bool) (instant : LocalTime) : Bool :=
  decide (ticksTo instant s.tb.lt ≤ cycleTicks) || (!capture && decide (ticksTo s.tb.lt instant ≤ cycleTicks))

/-- The anchor of R27. -/
def anchorFrom (a : TimeCellParams) (instant : LocalTime) : Anchor where
  lt := less instant (a.time.slot * 12000 + a.time.offset)
  frame := a.time.frame
  drift := max (-50000) (min 50000 a.drift)
  clamped := decide (a.drift < -50000) || decide (50000 < a.drift)

/-- The result of an accepted TIME CELL (R29). -/
def timeCellResult (a : TimeCellParams) (anchor : Anchor) (overrun : Bool) (w : Work) : List Byte :=
  ltBytes anchor.lt ++ bytesOfNat 2 anchor.frame ++ bytesOfInt 4 anchor.drift
    ++ [timeCellFlags anchor.clamped (decide (8191 < a.advance)) overrun]
    ++ countBytes w.moved ++ countBytes w.missed ++ countBytes w.lost

/-- The effects of an accepted TIME CELL, in the order of R28. -/
def State.installAnchor (s : State) (o : Owner) (a : TimeCellParams) (instant : LocalTime) : Reply :=
  let overrun := a.source == 1 && (s.tb.captures.get o).overrun
  let anchor := anchorFrom a instant
  let s1 := if a.source == 1 then s.emptyCapture o else s
  let s2 := s1.updateCell a.index (fun c => { c with anchor := some anchor, advance := min a.advance 8191 })
  let ordered := s2.reresolve (s2.membersOn a.index) (fun _ => a.index)
  match (Work.of ordered.1).run ordered.2 with
  | none => none
  | some w => some (accept w.st (timeCellResult a anchor overrun w))

/-- TIME CELL's checks (R26) and effects (R27, R28). -/
def State.timeCell (s : State) (o : Owner) (a : TimeCellParams) : Reply :=
  if 23 < a.index || !a.time.valid || 1 < a.source then some (refuse s .badParam)
  else
    match s.ownCell o a.index with
    | .error st => some (refuse s st)
    | .ok _ =>
        let slot := s.tb.captures.get o
        if a.source == 1 && !slot.present then some (refuse s .noCapture)
        else
          let instant := if a.source == 1 then slot.lt else BitVec.ofNat 48 a.lt
          if s.withinReach (a.source == 1) instant then s.installAnchor o a instant
          else some (refuse s .badParam)

/-- TIME CELL (R26 to R29). -/
def execTimeCell (p : Port) (a : TimeCellParams) (s : State) : Host.Outcome State Fault Refusal :=
  s.planCommand p (.timeCell p a) (fun t => withOwnerReply p t (fun o => t.timeCell o a))

/-! ### MEASURE REPORT, SET TRIGGER -/

/-- A level clamped to −320..−40 (R32). -/
def clampLevel (l : Int) : Int := max (-320) (min (-40) l)

/-- The counts of a MEASURE REPORT (R35). -/
structure Tally where
  stored : Nat
  ignored : Nat
  clamped : Nat
  candidates : Nat
  deriving DecidableEq, Repr

/-- Storage, in list order (R32). -/
def State.storeLevels (s : State) (o : Owner) : List (Nat × Int) → Tally → State × Tally
  | [], n => (s, n)
  | (i, l) :: rest, n =>
      match s.ownCell o i with
      | .error _ => s.storeLevels o rest { n with ignored := n.ignored + 1 }
      | .ok _ =>
          (s.updateCell i (fun c => { c with level := some (clampLevel l) })).storeLevels o rest
            { n with stored := n.stored + 1, clamped := n.clamped + (if clampLevel l == l then 0 else 1) }

/-- The evaluation of one neighbour against the serving level V (R33, R34). -/
def State.evaluate (s : State) (o : Owner) (v : Int) (i : Nat) (c : Cell) : State × Bool :=
  let g := s.ct.triggers.get o
  let l := c.level.getD v
  if v + g.hysteresis ≤ l then
    let n := if c.triggerCount == g.reports then c.triggerCount else c.triggerCount + 1
    let raise := n == g.reports && !c.candidate
    let s1 := s.setCell i (some { c with triggerCount := n, candidate := c.candidate || raise })
    (if raise then s1.post o .candidate i .none 0 (BitVec.ofInt 16 (l - v)) else s1, raise)
  else (s.setCell i (some { c with triggerCount := 0, candidate := false }), false)

/-- The evaluation of the named neighbours, in ascending order of index, each once (R33). -/
def State.evaluateAll (s : State) (o : Owner) (v : Int) : List (Nat × Cell) → Nat → State × Nat
  | [], n => (s, n)
  | (i, c) :: rest, n =>
      let e := s.evaluate o v i c
      e.1.evaluateAll o v rest (n + e.2.toNat)

/-- The SERVING entry's level, if there is one (R33). -/
def State.servingLevel (s : State) (o : Owner) : Option Int :=
  match s.serving? o with
  | none => none
  | some i => (s.cell? i).bind (·.level)

/-- MEASURE REPORT's checks, storage and evaluation (R32 to R35). -/
def State.measureReport (s : State) (o : Owner) (pairs : List (Nat × Int)) : Answer :=
  if pairs.isEmpty || 8 < pairs.length || pairs.any (fun x => decide (23 < x.1)) then refuse s .badParam
  else
    let stored := s.storeLevels o pairs ⟨0, 0, 0, 0⟩
    let result := fun (n : Tally) (raised : Nat) (skipped : Bool) =>
      bytesOfNat 1 n.stored ++ bytesOfNat 1 n.ignored ++ bytesOfNat 1 n.clamped ++ bytesOfNat 1 raised
        ++ flagByte skipped
    match stored.1.servingLevel o with
    | none => accept stored.1 (result stored.2 0 (decide (0 < stored.2.stored)))
    | some v =>
        let named := stored.1.cellList.filter (fun x =>
          x.2.owner == o && x.2.state == .neighbour && pairs.any (fun y => y.1 == x.1))
        let done := stored.1.evaluateAll o v named 0
        accept done.1 (result stored.2 done.2 false)

/-- MEASURE REPORT (R32). -/
def execMeasureReport (p : Port) (pairs : List (Nat × Int)) (s : State) : Host.Outcome State Fault Refusal :=
  s.command p (.measureReport p pairs) (fun t => withOwner p t (fun o => t.measureReport o pairs))

/-- SET TRIGGER's effect (R36). -/
def State.setTrigger (s : State) (o : Owner) (hysteresis trigger : Nat) : Answer :=
  let h := min hysteresis 60
  let n := max 1 (min trigger 15)
  let s1 :=
    { s with
      ct :=
        { cells := mapTable s.ct.cells (fun c =>
            c.map (fun x => if x.owner == o then { x with triggerCount := min x.triggerCount n } else x))
          triggers := s.ct.triggers.set o ⟨h, n⟩ } }
  accept s1 (bytesOfNat 1 h ++ bytesOfNat 1 n)

/-- SET TRIGGER (R36). -/
def execSetTrigger (p : Port) (hysteresis trigger : Nat) (s : State) : Host.Outcome State Fault Refusal :=
  s.command p (.setTrigger p hysteresis trigger) (fun t => withOwner p t (fun o => t.setTrigger o hysteresis trigger))

end Sys2Proof.Machine
end

