-- ==== Sys2Proof/Machine/ReservationCommands.lean ====
section
/-!
DEFINITION. The commands of chapter 3: RESERVE (R42 to R45), AMEND (R51, R52), CANCEL (R53) and READ RESERVATION (R59),
with the admission of a record that the session commands share (R38, R44).
-/

namespace Sys2Proof.Machine

/-! ### Admission -/

/-- The occurrence of a record that is being filled; `Record.startingAt` replaces it. -/
def Occurrence.blank : Occurrence :=
  ⟨0, .withdrawn, 0, none, 0, 0, 0, 0, 0, 0, 0, 0, 0, false, true, none, none, false, none, none, false, false, none⟩

/-- Occurrence 0 is current, resolved on an entry to an LT with the advance used (step 3 of R44). -/
def Record.startingAt (r : Record) (entry : Nat) (lt : LocalTime) (advance : Nat) : Record :=
  { r with occ := r.freshOcc 0 .withdrawn entry (some lt) advance }

/-- A record takes the lowest free handle, and one bound by index counts on its entry (R38, steps 1 and 2 of R44). -/
def State.admitRecord (s : State) (r : Record) : Option (Nat × State) :=
  match lowestFree s.rt.records with
  | none => none
  | some h =>
      let s1 := s.setRecord h (some r)
      some (h, match r.binding with
        | .byIndex i => s1.updateCell i (fun c => { c with refCount := c.refCount + 1 })
        | .followsServing => s1)

/-! ### RESERVE -/

/-- Step 2 of R42: a field out of range. -/
def reserveOutOfRange (a : ReserveParams) (kind : Kind) : Bool :=
  (match bindingParam a.binding with
    | .byIndex i => decide (23 < i)
    | .followsServing => false)
  || !a.start.valid || decide (a.length < 1200) || decide (kind.longest < a.length)
  || decide (15 < a.level) || decide (15 < a.profile) || decide (2048 < a.period)
  || (!(a.period == 0) && (decide (144000 * a.period ≤ a.length) || a.mask % 2 == 0))

/-- The record of an accepted RESERVE, as adjusted by R42, before its occurrence (step 1 of R44). -/
def reserveRecord (a : ReserveParams) (o : Owner) (kind : Kind) : Record where
  owner := o
  kind := kind
  binding := bindingParam a.binding
  start := a.start
  length := a.length
  level := a.level
  period := if a.period == 0 then none else some a.period
  count := if a.period == 0 then some 1 else if a.count == 0 then none else some a.count
  remaining := if a.period == 0 then some 0 else if a.count == 0 then none else some (a.count - 1)
  mask := if a.period == 0 then 65535 else BitVec.ofNat 16 a.mask
  slack := min a.slack 144000
  resumable := kind.mayResume && flagParam a.resumable
  profile := a.profile
  link := none
  served := 0
  lost := 0
  occ := Occurrence.blank

/-- The entry a binding names for its owner (step 3 of R43). -/
def State.bindingEntry (s : State) (o : Owner) (b : Binding) : Except Status Nat :=
  match b with
  | .byIndex i =>
      match s.cell? i with
      | none => .error .unknown
      | some c => if c.owner == o then .ok i else .error .notOwner
  | .followsServing =>
      match s.serving? o with
      | some i => .ok i
      | none => .error .notServing

/-- An entry has an anchor. -/
def State.timed (s : State) (i : Nat) : Bool :=
  match s.cell? i with
  | some c => c.anchor.isSome
  | none => false

/-- An admission's outcome: GRANTED, DEFERRED, DENIED (R45). -/
def reserveCode : AdmitOutcome → Nat
  | .granted => 0
  | .deferred => 1
  | .denied => 2
  | .yielded => 2

/-- The result of an admitted RESERVE (R45). -/
def reserveResult (x : Admission) (nominal : LocalTime) (ended : Bool) (slack : Nat) : List Byte :=
  bytesOfNat 1 x.handle ++ bytesOfNat 1 (reserveCode x.outcome) ++ ltBytes nominal ++ ltBytes x.placed
    ++ bytesOfNat 3 x.shift ++ flagByte ended ++ bytesOfNat 3 slack

/-- The report of a handle's admission. -/
def Work.admission (w : Work) (h : Nat) (nominal : LocalTime) : Admission :=
  (w.admitted.find? (fun x => x.handle == h)).getD ⟨h, .denied, nominal, 0⟩

/-- The admission of a RESERVE that has passed every check (R44, R45). -/
def State.admitReserve (s : State) (r : Record) (nominal : LocalTime) : Reply :=
  match s.admitRecord r with
  | none => some (refuse s .tableFull)
  | some (h, s1) =>
      match ({ Work.of s1 with admitting := some h }).run [.offer h 0 .admission] with
      | none => none
      | some w =>
          some (accept w.st (reserveResult (w.admission h nominal) nominal (w.st.record? h).isNone r.slack))

/-- Steps 3 to 6 of R43, then the admission. -/
def State.reserveBound (s : State) (o : Owner) (r : Record) : Reply :=
  match s.bindingEntry o r.binding with
  | .error st => some (refuse s st)
  | .ok entry =>
      if !s.timed entry then some (refuse s .notTimed)
      else if 40 ≤ s.recordsOf o then some (refuse s .quota)
      else if (lowestFree s.rt.records).isNone then some (refuse s .tableFull)
      else
        match s.resolveFor o r.binding entry r.start s.tb.lt r.kind.isTx 0 with
        | .untimed _ => some (refuse s .notTimed)
        | .switched _ _ _ => some (refuse s .late)
        | .found on lt adv =>
            if s.farEnough lt then s.admitReserve (r.startingAt on lt adv) lt else some (refuse s .late)

/-- RESERVE's checks (R42, R43) and admission (R44). -/
def State.reserve (s : State) (o : Owner) (a : ReserveParams) : Reply :=
  match reservableKind a.kind with
  | none => some (refuse s .badParam)
  | some kind => if reserveOutOfRange a kind then some (refuse s .badParam) else s.reserveBound o (reserveRecord a o kind)

/-- RESERVE (R42 to R45). -/
def execReserve (p : Port) (a : ReserveParams) (s : State) : Host.Outcome State Fault Refusal :=
  s.planCommand p (.reserve p a) (fun t => withOwnerReply p t (fun o => t.reserve o a))

/-! ### Records of an owner -/

/-- The record at a handle for its owner: BAD_PARAM above 63, UNKNOWN for a free handle, NOT_OWNER for the other
owner's (the order of R53, R59, R96). -/
def State.ownRecord (s : State) (o : Owner) (h : Nat) : Except Status Record :=
  if 63 < h then .error .badParam
  else
    match s.record? h with
    | none => .error .unknown
    | some r => if r.owner == o then .ok r else .error .notOwner

/-- As `State.ownRecord`, with NOT_OWNER for a record that a session owns too (R51, R53). -/
def State.plainRecord (s : State) (o : Owner) (h : Nat) : Except Status Record :=
  match s.ownRecord o h with
  | .error st => .error st
  | .ok r => if r.link.isSome then .error .notOwner else .ok r

/-! ### AMEND -/

/-- Bit i of the selection selects the i-th field of R51 (R179). -/
def amendSelects (a : AmendParams) (i : Nat) : Bool := a.selection.testBit i

/-- Step 2 of R51, but for the handle: no field selected, or a selected value out of range. -/
def amendOutOfRange (a : AmendParams) : Bool :=
  a.selection % 32 == 0 || (amendSelects a 0 && decide (15 < a.level)) || (amendSelects a 2 && decide (15 < a.profile))
    || (amendSelects a 3 && a.mask == 0)

/-- The record with each selected field written (R51, R52). -/
def amendApply (a : AmendParams) (r : Record) : Record :=
  { r with
    level := if amendSelects a 0 then a.level else r.level
    slack := if amendSelects a 1 then min a.slack 144000 else r.slack
    profile := if amendSelects a 2 then a.profile else r.profile
    mask := if amendSelects a 3 then BitVec.ofNat 16 a.mask else r.mask
    remaining :=
      if amendSelects a 4 then (if flagParam a.unlimited then none else some (min a.remaining 65534)) else r.remaining }

/-- The result of AMEND (R52). -/
def Record.amendResult (r : Record) : List Byte :=
  bytesOfNat 1 r.level ++ bytesOfNat 3 r.slack ++ bytesOfNat 1 r.profile ++ bytesOfNat 2 r.mask.toNat
    ++ limitBytes r.remaining ++ flagByte r.remaining.isNone ++ bytesOfNat 2 r.occ.k

/-- AMEND's checks and effect (R51, R52). -/
def State.amend (s : State) (o : Owner) (a : AmendParams) : Answer :=
  if 63 < a.handle || amendOutOfRange a then refuse s .badParam
  else
    match s.plainRecord o a.handle with
    | .error st => refuse s st
    | .ok r =>
        if r.period.isNone then refuse s .state
        else accept (s.setRecord a.handle (some (amendApply a r))) (amendApply a r).amendResult

/-- AMEND (R51, R52). -/
def execAmend (p : Port) (a : AmendParams) (s : State) : Host.Outcome State Fault Refusal :=
  s.command p (.amend p a) (fun t => withOwner p t (fun o => t.amend o a))

/-! ### CANCEL -/

/-- The current occurrence is ended by CANCEL according to its state (the table of R53): the state, and whether the
outcome is CUT. -/
def State.cancelOccurrence (s : State) (h : Nat) (r : Record) : State × Bool :=
  match r.occ.state with
  | .active => ((s.endPart h s.tb.lt).postWindowEnd h .cut false true false, true)
  | .suspended => (s.postWindowEnd h .cancelled false false true, false)
  | .granted => (s, false)
  | .waiting => (s, false)
  | .withdrawn => (s, false)

/-- The result of CANCEL: CANCELLED or CUT, the index, and the counters after the ending (R53). -/
def cancelResult (cut : Bool) (r : Record) : List Byte :=
  flagByte cut ++ bytesOfNat 2 r.occ.k ++ bytesOfNat 2 r.served ++ bytesOfNat 2 r.lost

/-- CANCEL's checks and effect (R53). -/
def State.cancel (s : State) (o : Owner) (h : Nat) : Answer :=
  match s.plainRecord o h with
  | .error st => refuse s st
  | .ok r =>
      let ended := s.cancelOccurrence h r
      accept (ended.1.removeRecord h) (cancelResult ended.2 (r.count' (if ended.2 then .cut else .cancelled)))

/-- CANCEL (R53). -/
def execCancel (p : Port) (handle : Nat) (s : State) : Host.Outcome State Fault Refusal :=
  s.planCommand p (.cancel p handle) (fun t => withOwnerReply p t (fun o => some (t.cancel o handle)))

/-! ### READ RESERVATION -/

/-- The session link: present, the session's kind (a call, an exchange) and its index, a call's being its owner
(R59; notes/assumptions/32). Kind and index of an absent link are sent as 0 (notes/assumptions/43). -/
def Record.linkBytes (r : Record) : List Byte :=
  match r.link with
  | none => bytesOfNat 3 0
  | some .call => flagByte true ++ bytesOfNat 1 0 ++ bytesOfNat 1 r.owner.code
  | some (.exchange i) => flagByte true ++ bytesOfNat 1 1 ++ bytesOfNat 1 i

/-- The current occurrence as READ RESERVATION lists it (R59). Ticks served and length remaining of an ACTIVE one are
those at the rise of its part: a part counts when it ends (notes/assumptions/38). -/
def Occurrence.result (x : Occurrence) : List Byte :=
  bytesOfNat 2 x.k ++ bytesOfNat 1 x.state.code ++ bytesOfNat 1 x.entry ++ bytesOfNat 3 x.shift
    ++ bytesOfNat 3 x.remaining ++ bytesOfNat 3 x.served ++ bytesOfNat 1 x.suspensions ++ bytesOfNat 1 x.level
    ++ bytesOfNat 3 x.slack ++ bytesOfNat 1 x.profile

/-- The nominal and placed start, 0 while WAITING (R59). -/
def Occurrence.startBytes (x : Occurrence) : List Byte :=
  if x.state == .waiting then bytesOfNat 12 0 else ltBytes (x.nominal.getD 0) ++ ltBytes x.placed

/-- The result of READ RESERVATION, in the order of R59. -/
def Record.result (r : Record) : List Byte :=
  bytesOfNat 1 r.kind.code ++ bindingByte r.binding ++ bytesOfTime r.start ++ bytesOfNat 3 r.length
    ++ bytesOfNat 2 (r.period.getD 0) ++ limitBytes r.count
    ++ bytesOfNat 1 r.level ++ bytesOfNat 3 r.slack ++ bytesOfNat 1 r.profile ++ bytesOfNat 2 r.mask.toNat
    ++ limitBytes r.remaining ++ flagByte r.remaining.isNone ++ flagByte r.resumable
    ++ r.linkBytes ++ bytesOfNat 2 r.served ++ bytesOfNat 2 r.lost
    ++ r.occ.result ++ r.occ.startBytes

/-- READ RESERVATION (R59). -/
def execReadReservation (p : Port) (handle : Nat) (s : State) : Host.Outcome State Fault Refusal :=
  s.command p (.readReservation p handle) (fun t =>
    withOwner p t (fun o =>
      match t.ownRecord o handle with
      | .error st => refuse t st
      | .ok r => accept t r.result))

end Sys2Proof.Machine
end

