-- ==== Sys2Proof/Machine/PolicyCommands.lean ====
section
/-!
DEFINITION. The commands of chapter 4: SET POLICY (R65), READ POLICY (R66) and READ TIMELINE (R84).
-/

namespace Sys2Proof.Machine

/-- The stored thresholds and guard, as SET POLICY and READ POLICY return them (R65, R66). -/
def State.policyResult (s : State) : List Byte :=
  bytesOfNat 1 s.arb.t1 ++ bytesOfNat 1 s.arb.t2 ++ bytesOfNat 1 s.arb.t3 ++ bytesOfNat 2 s.arb.guard

/-- SET POLICY's check and effect (R65). -/
def State.setPolicy (s : State) (t1 t2 t3 guard : Nat) : Answer :=
  if t2 < t1 || t3 < t2 || 16 < t3 || 12000 < guard then refuse s .badPolicy
  else
    let s1 := { s with arb := { s.arb with t1 := t1, t2 := t2, t3 := t3, guard := guard } }
    accept s1 s1.policyResult

/-- SET POLICY (R65). -/
def execSetPolicy (p : Port) (t1 t2 t3 guard : Nat) (s : State) : Host.Outcome State Fault Refusal :=
  s.planCommand p (.setPolicy p t1 t2 t3 guard) (fun t => some (t.setPolicy t1 t2 t3 guard))

/-- READ POLICY (R66). -/
def execReadPolicy (p : Port) (s : State) : Host.Outcome State Fault Refusal :=
  s.command p (.readPolicy p) (fun t =>
    accept t (t.policyResult ++ [0, 1, 2, 3].flatMap (fun c => bytesOfNat 1 (t.token c).code)))

/-- One window of READ TIMELINE, in 16 bytes (R84). -/
def State.windowBytes (s : State) (w : Nat × Record) : List Byte :=
  let x := w.2.occ
  bytesOfNat 1 w.1
    ++ [flagBits [w.2.owner == .b, x.state.timelineCode.testBit 0, x.state.timelineCode.testBit 1, w.2.kind.isTx,
          x.cutAt.isSome]]
    ++ bytesOfNat 1 x.profile ++ bytesOfNat 1 (s.classOf x.level) ++ ltBytes x.placed ++ ltBytes x.endLt

/-- READ TIMELINE's check and result: the count, the position, then up to five windows (R84). A position at or beyond
the count, which returns none, is sent back as it came (notes/assumptions/41). -/
def State.readTimeline (s : State) (position : Nat) : Answer :=
  if 63 < position then refuse s .badParam
  else
    accept s (bytesOfNat 1 s.timeline.length ++ bytesOfNat 1 position
      ++ ((s.timeline.drop position).take 5).flatMap s.windowBytes)

/-- READ TIMELINE (R84). -/
def execReadTimeline (p : Port) (position : Nat) (s : State) : Host.Outcome State Fault Refusal :=
  s.command p (.readTimeline p position) (fun t => t.readTimeline position)

end Sys2Proof.Machine
end

