-- ==== Sys2Proof/Machine/WindowCommands.lean ====
section
/-!
DEFINITION. The commands of chapter 5: SET PROFILE (R87) and END WINDOW (R96).
-/

namespace Sys2Proof.Machine

/-- The four settings of a profile are replaced. A write of the profile that last loaded names, or of the one in
flight, is noted (R87, R91). -/
def State.writeProfile (s : State) (o : Owner) (i : Nat) (f : Profile) : State :=
  { s with
    wc := { s.wc with
      profiles := s.wc.profiles.set o ((s.wc.profiles.get o).setIfInBounds i f)
      writtenSince := s.wc.writtenSince || s.wc.lastLoaded == some (o, i)
      load := s.wc.load.map (fun l =>
        if l.owner == o && l.profile == i then { l with rewritten := true } else l) } }

/-- SET PROFILE's check and effect (R87). -/
def State.setProfile (s : State) (o : Owner) (i band channel gain antenna : Nat) : Answer :=
  if 15 < i || 63 < band || 7 < gain || 3 < antenna then refuse s .badParam
  else
    accept (s.writeProfile o i ⟨band, channel, gain, antenna⟩)
      (bytesOfNat 1 band ++ bytesOfNat 2 channel ++ bytesOfNat 1 gain ++ bytesOfNat 1 antenna)

/-- SET PROFILE (R87). -/
def execSetProfile (p : Port) (index band channel gain antenna : Nat) (s : State) :
    Host.Outcome State Fault Refusal :=
  s.command p (.setProfile p index band channel gain antenna) (fun t =>
    withOwner p t (fun o => t.setProfile o index band channel gain antenna))

/-- END WINDOW's checks and effect (R96). -/
def State.endWindow (s : State) (o : Owner) (h : Nat) : Reply :=
  match s.ownRecord o h with
  | .error st => some (refuse s st)
  | .ok r =>
      if r.occ.state == .active then
        let s1 := (s.endPart h s.tb.lt).postWindowEnd h .done true false false
        match (Work.of s1.refreshWindows).run [.ended h r.occ.k .done] with
        | none => none
        | some w => some (accept w.st (bytesOfNat 3 (r.occ.served + ticksTo r.occ.placed s.tb.lt)))
      else some (refuse s .state)

/-- END WINDOW (R96). -/
def execEndWindow (p : Port) (handle : Nat) (s : State) : Host.Outcome State Fault Refusal :=
  s.planCommand p (.endWindow p handle) (fun t => withOwnerReply p t (fun o => t.endWindow o handle))

end Sys2Proof.Machine
end

