-- ==== Sys2Proof/Machine/CallCommands.lean ====
section
/-!
DEFINITION. The commands of chapter 6: CALL START (R102 to R105), CALL END (R112) and READ CALL (R117).
-/

namespace Sys2Proof.Machine

/-! ### CALL START -/

/-- Step 2 of R102: a field out of range, or bursts that do not fit their period in order. -/
def callOutOfRange (a : CallParams) : Bool :=
  !a.rxStart.valid || decide (a.rxLength < 1200) || decide (480000 < a.rxLength) || decide (144000 < a.txDelay)
    || decide (a.txLength < 1200) || decide (480000 < a.txLength) || decide (a.period < 1) || decide (8 < a.period)
    || decide (15 < a.level) || decide (8 < a.allowance) || decide (32 < a.threshold) || decide (15 < a.rxProfile)
    || decide (15 < a.txProfile) || decide (a.txDelay < a.rxLength)
    || decide (144000 * a.period < a.txDelay + a.txLength)

/-- The degrade threshold K as selected: 0 selects 8 (R102). -/
def selectedThreshold (k : Nat) : Nat := if k == 0 then 8 else k

/-- A burst record of a call, before its occurrence (the table of R104). -/
def burstRecord (o : Owner) (a : CallParams) (kind : Kind) (start : CellTime) (length profile : Nat) : Record where
  owner := o
  kind := kind
  binding := .followsServing
  start := start
  length := length
  level := a.level
  period := some a.period
  count := none
  remaining := none
  mask := 65535
  slack := 0
  resumable := false
  profile := profile
  link := some .call
  served := 0
  lost := 0
  occ := Occurrence.blank

/-- Where a burst of period 0 resolved (R103). -/
structure Burst where
  entry : Nat
  lt : LocalTime
  advance : Nat
  switched : Bool
  deriving DecidableEq, Repr

/-- A resolution as a burst; none where it is untimed or out of reach. -/
def Placement.burst (p : Placement) : Option Burst :=
  match p with
  | .untimed _ => none
  | .found e lt adv => some ⟨e, lt, adv, false⟩
  | .switched e lt adv => some ⟨e, lt, adv, true⟩

/-- The receive and transmit bursts of period 0 (R103). -/
def State.resolveBursts (s : State) (o : Owner) (serving : Nat) (a : CallParams) : Option (Burst × Burst) :=
  match (s.resolveFor o .followsServing serving a.rxStart s.tb.lt false 0).burst with
  | none => none
  | some rx =>
      match (s.resolveFor o .followsServing serving (a.rxStart.add a.txDelay) (less rx.lt 1) true 0).burst with
      | none => none
      | some tx => some (rx, tx)

/-- A burst of period 0 is too late: it fails the lead, or it falls before a pending switch (R103). -/
def State.burstLate (s : State) (b : Burst) : Bool := b.switched || !s.farEnough b.lt

/-- The session of an admitted CALL START (step 1 of R104), with its handles. -/
def newCall (a : CallParams) (rx tx : Nat) : Call where
  state := .running
  params := { a with threshold := selectedThreshold a.threshold }
  rxHandle := some rx
  txHandle := some tx
  yields := []
  reference := none
  degradation := 0
  granted := 0
  refused := 0

/-- GRANTED, DENIED, YIELDED (R105). A burst has no slack, so it is never deferred (R104). -/
def burstCode : AdmitOutcome → Nat
  | .granted => 0
  | .deferred => 0
  | .denied => 1
  | .yielded => 2

/-- One burst of the response (R105). -/
def Burst.result (b : Burst) (x : Admission) : List Byte :=
  bytesOfNat 1 (burstCode x.outcome) ++ ltBytes b.lt ++ bytesOfNat 1 b.entry

/-- The admission of a CALL START that has passed every check (R104, R105). -/
def State.admitCall (s : State) (o : Owner) (a : CallParams) (rx tx : Burst) : Reply :=
  let rxRecord := (burstRecord o a .callRx a.rxStart a.rxLength a.rxProfile).startingAt rx.entry rx.lt rx.advance
  let txRecord :=
    (burstRecord o a .callTx (a.rxStart.add a.txDelay) a.txLength a.txProfile).startingAt tx.entry tx.lt tx.advance
  match s.admitRecord rxRecord with
  | none => some (refuse s .tableFull)
  | some (rxH, s1) =>
      match s1.admitRecord txRecord with
      | none => some (refuse s .tableFull)
      | some (txH, s2) =>
          let s3 := s2.setCall o (some (newCall a rxH txH))
          match (Work.of s3).run [.offer rxH 0 .admission, .offer txH 0 .admission] with
          | none => none
          | some w =>
              some (accept w.st
                (bytesOfNat 1 rxH ++ bytesOfNat 1 txH ++ rx.result (w.admission rxH rx.lt)
                  ++ tx.result (w.admission txH tx.lt) ++ bytesOfNat 1 (selectedThreshold a.threshold)))

/-- CALL START's checks in the order of R102 (NOT_TIMED before CALL_ACTIVE: notes/assumptions/42), then the admission. -/
def State.callStart (s : State) (o : Owner) (a : CallParams) : Reply :=
  if callOutOfRange a then some (refuse s .badParam)
  else
    match s.serving? o with
    | none => some (refuse s .notServing)
    | some serving =>
        if !s.timed serving then some (refuse s .notTimed)
        else if (s.call? o).isSome then some (refuse s .callActive)
        else if 39 ≤ s.recordsOf o then some (refuse s .quota)
        else if 63 ≤ s.recordList.length then some (refuse s .tableFull)
        else
          match s.resolveBursts o serving a with
          | none => some (refuse s .notTimed)
          | some (rx, tx) =>
              if s.burstLate rx || s.burstLate tx then some (refuse s .late) else s.admitCall o a rx tx

/-- CALL START (R102 to R105). -/
def execCallStart (p : Port) (a : CallParams) (s : State) : Host.Outcome State Fault Refusal :=
  s.planCommand p (.callStart p a) (fun t => withOwnerReply p t (fun o => t.callStart o a))

/-! ### CALL END -/

/-- CALL END takes one record (the table of R112): an ACTIVE burst runs on as the record's last, any other ends
CANCELLED. Answers whether the burst is ACTIVE. -/
def State.endBurst (s : State) (h : Option Nat) : State × Bool :=
  match h with
  | none => (s, false)
  | some h =>
      match s.record? h with
      | none => (s, false)
      | some r =>
          if r.occ.state == .active then (s.updateRecord h (fun x => { x with remaining := some 0 }), true)
          else ((s.informCall h r r.occ.k .cancelled).removeRecord h, false)

/-- The served and lost counters of a burst record, zeros where it no longer exists. -/
def State.burstCounters (s : State) (h : Option Nat) : List Byte :=
  match h.bind s.record? with
  | some r => bytesOfNat 2 r.served ++ bytesOfNat 2 r.lost
  | none => bytesOfNat 4 0

/-- CALL END's checks and effects (R112). -/
def State.callEnd (s : State) (o : Owner) : Answer :=
  match s.call? o with
  | none => refuse s .state
  | some c =>
      if c.state == .ending then refuse s .state
      else
        let s1 := s.setCall o (some { c with state := .ending })
        let rx := s1.endBurst c.rxHandle
        let tx := rx.1.endBurst c.txHandle
        let runs := rx.2 || tx.2
        let final := if runs then tx.1 else tx.1.setCall o none
        accept final
          (bytesOfNat 1 (if runs then 2 else 0)
            ++ bytesOfNat 2 (((c.rxHandle.bind s.record?).map (·.occ.k)).getD 0)
            ++ s.burstCounters c.rxHandle ++ s.burstCounters c.txHandle
            ++ bytesOfNat 2 c.granted ++ bytesOfNat 2 c.refused)

/-- CALL END (R112). -/
def execCallEnd (p : Port) (s : State) : Host.Outcome State Fault Refusal :=
  s.planCommand p (.callEnd p) (fun t => withOwnerReply p t (fun o => some (t.callEnd o)))

/-! ### READ CALL -/

/-- NONE, RUNNING, ENDING (R101). -/
def CallState.code : CallState → Nat
  | .running => 1
  | .ending => 2

/-- The stored parameters, in the order of R102. -/
def callParamBytes (a : CallParams) : List Byte :=
  bytesOfTime a.rxStart ++ bytesOfNat 3 a.rxLength ++ bytesOfNat 3 a.txDelay ++ bytesOfNat 3 a.txLength
    ++ bytesOfNat 1 a.period ++ bytesOfNat 1 a.level ++ bytesOfNat 1 a.allowance ++ bytesOfNat 1 a.threshold
    ++ bytesOfNat 1 a.rxProfile ++ bytesOfNat 1 a.txProfile

/-- A session that is not NONE as READ CALL lists it, with the period number given (R117). A handle or h that is absent
reads 0 after its clear flag (notes/assumptions/43). -/
def Call.result (c : Call) (period : Nat) : List Byte :=
  bytesOfNat 1 c.state.code ++ callParamBytes c.params ++ presentByte c.rxHandle ++ presentByte c.txHandle
    ++ bytesOfNat 2 period ++ flagByte c.reference.isSome ++ bytesOfNat 2 (c.reference.getD 0)
    ++ bytesOfNat 1 c.yields.length ++ c.yields.flatMap (bytesOfNat 2) ++ bytesOfNat 1 c.degradation
    ++ bytesOfNat 2 c.granted ++ bytesOfNat 2 c.refused

/-- READ CALL's result for an owner (R117). While the receive record is gone, in ENDING, the manual states no period
number, and a free value stands there (notes/assumptions/11). -/
def State.readCall (s : State) (o : Owner) : Answer :=
  match s.call? o with
  | none => accept s (bytesOfNat 36 0)
  | some c =>
      match c.rxHandle.bind s.record? with
      | some r => accept s (c.result r.occ.k)
      | none => accept s.takeFree.2 (c.result s.takeFree.1.toNat)

/-- READ CALL's owner: the byte on POLICY, the issuing owner on a SUB port (R117). -/
def readOwner (p : Port) (which : Option Nat) : Option Owner :=
  match which with
  | some w => ownerOfByte w
  | none => p.owner?

/-- READ CALL (R117). -/
def execReadCall (p : Port) (which : Option Nat) (s : State) : Host.Outcome State Fault Refusal :=
  s.command p (.readCall p which) (fun t =>
    match readOwner p which with
    | some o => t.readCall o
    | none => refuse t .badParam)

end Sys2Proof.Machine
end

