-- ==== Sys2Proof/Machine/ExchangeCommands.lean ====
section
/-!
DEFINITION. The commands of chapter 7: EXCHANGE SUBMIT (R120 to R125) with its placement search, EXCHANGE CANCEL (R130)
and READ EXCHANGE (R133).
-/

namespace Sys2Proof.Machine

/-! ### The form of a submission -/

/-- A step out of range (step 2 of R120). -/
def stepOutOfRange (x : StepParams) : Bool :=
  decide (1 < x.direction) || decide (4000000 < x.offset) || decide (x.length < 1200) || decide (480000 < x.length)
    || decide (15 < x.profile)

/-- Offsets decrease, or a step overlaps the one before it (step 3 of R120). -/
def stepsOverlap : List StepParams → Bool
  | x :: y :: rest => decide (y.offset < x.offset + x.length) || stepsOverlap (y :: rest)
  | [_] => false
  | [] => false

/-- Steps 2 and 3 of R120. -/
def exchangeOutOfRange (a : ExchangeParams) : Bool :=
  a.count == 0 || decide (8 < a.count) || !(a.count == a.steps.length) || !a.earliest.valid || !a.latest.valid
    || decide (15 < a.level) || a.steps.any stepOutOfRange || stepsOverlap a.steps

/-- The span: latest less earliest in cell ticks, modulo one cycle (step 4 of R120). -/
def exchangeSpan (a : ExchangeParams) : Nat := (a.latest.inCycle + cycleTicks - a.earliest.inCycle) % cycleTicks

/-! ### The placement search -/

/-- The exchange start of candidate j (section 7.3). -/
def candidateStart (a : ExchangeParams) (j : Nat) : CellTime := a.earliest.add (j * 12000)

/-- A step with the LT and advance its start resolved to. -/
structure PlacedStep where
  step : StepParams
  lt : LocalTime
  advance : Nat
  deriving DecidableEq, Repr

/-- Resolve the steps of a candidate on an entry (R122); none where one is untimed or out of reach. -/
def State.resolveSteps (s : State) (entry : Nat) (start : CellTime) (ref : LocalTime) :
    List StepParams → Option (List PlacedStep)
  | [] => some []
  | x :: rest =>
      match s.resolveOn entry (start.add x.offset) ref (x.direction == 1) 0 with
      | .found lt adv => (s.resolveSteps entry start ref rest).map (⟨x, lt, adv⟩ :: ·)
      | .untimed => none
      | .outOfReach => none

/-- Where a candidate resolved. -/
inductive Candidate where
  | untimed
  | unusable
  | on (entry : Nat) (steps : List PlacedStep)
  deriving DecidableEq, Repr

/-- Resolve a candidate on the target of a pending handover (R122). -/
def State.candidateOnTarget (s : State) (ho : Handover) (start : CellTime) (ref : LocalTime)
    (steps : List StepParams) : Candidate :=
  match s.resolveSteps ho.target start ref steps with
  | none => .untimed
  | some ps =>
      match ps with
      | first :: _ => if before first.lt ho.ts then .unusable else .on ho.target ps
      | [] => .unusable

/-- Resolve a candidate: on the SERVING entry, or by where it lies about a pending switch (R122). -/
def State.resolveCandidate (s : State) (o : Owner) (serving : Nat) (start : CellTime) (ref : LocalTime)
    (steps : List StepParams) : Candidate :=
  match s.resolveSteps serving start ref steps with
  | none => .untimed
  | some ps =>
      match s.handover? o with
      | none => .on serving ps
      | some ho =>
          match ps.head?, ps.getLast? with
          | some first, some last =>
              if atOrBefore (plus last.lt last.step.length) ho.ts then .on serving ps
              else if before first.lt ho.ts then .unusable
              else s.candidateOnTarget ho start ref steps
          | _, _ => .unusable

def stepKind (direction : Nat) : Kind := if direction == 1 then .stepTx else .stepRx

/-- Each step starts at or after the guarded end of the one before it (condition 2 of R123). -/
def State.stepsInOrder (s : State) : List PlacedStep → Bool
  | x :: y :: rest =>
      atOrBefore (plus x.lt (x.step.length + if x.step.profile == y.step.profile then 0 else s.arb.guard)) y.lt
        && s.stepsInOrder (y :: rest)
  | [_] => true
  | [] => true

/-- A trial of a step, under the handle it would take (condition 3 of R123; notes/assumptions/18). -/
def State.stepTrial (s : State) (o : Owner) (level : Nat) (x : PlacedStep × Nat) : Bool :=
  s.trial ⟨x.2, o, stepKind x.1.step.direction, level⟩ x.1.step.profile x.1.lt x.1.step.length

/-- A resolved candidate is usable (R123). -/
def State.stepsUsable (s : State) (o : Owner) (level : Nat) (ps : List PlacedStep) : Bool :=
  ps.all (fun x => s.farEnough x.lt) && s.stepsInOrder ps
    && (ps.zip (freeIndexes s.rt.records)).all (s.stepTrial o level)

/-- What the search found (R123). -/
inductive Found where
  | notTimed
  | noRoom
  | chosen (j entry : Nat) (steps : List PlacedStep)
  deriving DecidableEq, Repr

/-- The candidates from j on, in ascending order; the first usable one is chosen (R123). -/
def State.searchCandidates (s : State) (o : Owner) (serving : Nat) (a : ExchangeParams) (ref : LocalTime) :
    Nat → Nat → Found
  | 0, _ => .noRoom
  | left + 1, j =>
      match s.resolveCandidate o serving (candidateStart a j) ref a.steps with
      | .untimed => .notTimed
      | .unusable => s.searchCandidates o serving a ref left (j + 1)
      | .on entry ps =>
          if s.stepsUsable o a.level ps then .chosen j entry ps else s.searchCandidates o serving a ref left (j + 1)

/-- The placement search, with X0 less one tick as its base (R122, R123). -/
def State.placeExchange (s : State) (o : Owner) (serving : Nat) (a : ExchangeParams) : Found :=
  match s.resolveOn serving a.earliest s.tb.lt false 0 with
  | .found x0 _ => s.searchCandidates o serving a (less x0 1) (exchangeSpan a / 12000 + 1) 0
  | .untimed => .notTimed
  | .outOfReach => .notTimed

/-! ### Admission of the steps -/

/-- The record of a step, current at its resolved start (step 2 of R124). -/
def stepRecord (o : Owner) (a : ExchangeParams) (i j entry : Nat) (x : PlacedStep) : Record :=
  let r : Record :=
    { owner := o
      kind := stepKind x.step.direction
      binding := .followsServing
      start := (candidateStart a j).add x.step.offset
      length := x.step.length
      level := a.level
      period := none
      count := some 1
      remaining := some 0
      mask := 65535
      slack := 0
      resumable := false
      profile := x.step.profile
      link := some (.exchange i)
      served := 0
      lost := 0
      occ := Occurrence.blank }
  r.startingAt entry x.lt x.advance

/-- Admit the step records in step order (step 2 of R124): the state and the handles; none where no handle is free. -/
def State.admitSteps (s : State) : List Record → Option (State × List Nat)
  | [] => some (s, [])
  | r :: rest =>
      match s.admitRecord r with
      | none => none
      | some (h, s1) => (s1.admitSteps rest).map (fun x => (x.1, h :: x.2))

/-- The exchange of an accepted submission (step 1 of R124), with its handles. -/
def newExchange (o : Owner) (a : ExchangeParams) (j entry : Nat) (handles : List Nat) : Exchange where
  owner := o
  state := .placed
  earliest := a.earliest
  latest := a.latest
  level := a.level
  steps := (a.steps.zip handles).map (fun x =>
    ⟨x.1.direction == 1, x.1.offset, x.1.length, x.1.profile, some x.2, none⟩)
  candidate := j
  entry := entry
  done := 0
  cancelPending := false

/-- A step's outcome at the submission: GRANTED, DENIED, DISPLACED, CANCELLED (R125). -/
def submissionCode : Option Ending → Nat
  | none => 0
  | some (.denied false) => 1
  | some (.denied true) => 2
  | some .cancelled => 3
  | some .done => 3
  | some .cut => 3
  | some .yielded => 3
  | some (.missed _) => 3

/-- One step of the response (R125). -/
def submitStepBytes (h : Nat) (ending : Option Ending) (x : PlacedStep) : List Byte :=
  bytesOfNat 1 h ++ bytesOfNat 1 (submissionCode ending) ++ ltBytes x.lt

/-- The response to an accepted EXCHANGE SUBMIT (R125). -/
def submitResult (i j entry : Nat) (a : ExchangeParams) (handles : List Nat) (ps : List PlacedStep)
    (abandoned : Option Abandonment) : List Byte :=
  let endings : List (Option Ending) := match abandoned with
    | some x => x.steps.map (·.ending)
    | none => ps.map (fun _ => none)
  bytesOfNat 1 i ++ bytesOfNat 1 (if abandoned.isSome then 3 else 0) ++ bytesOfNat 2 (j + 1) ++ bytesOfNat 1 j
    ++ bytesOfTime (candidateStart a j) ++ bytesOfNat 1 entry
    ++ ((handles.zip endings).zip ps).flatMap (fun x => submitStepBytes x.1.1 x.1.2 x.2)
    ++ (match abandoned with
      | some x => bytesOfNat 1 x.failing ++ bytesOfNat 1 x.reason.code
      | none => [])

/-- The admission of a submission whose search chose a candidate (R124, R125). -/
def State.admitExchange (s : State) (o : Owner) (a : ExchangeParams) (j entry : Nat) (ps : List PlacedStep) : Reply :=
  match lowestFree s.su.exchanges with
  | none => some (refuse s .tableFull)
  | some i =>
      match s.admitSteps (ps.map (stepRecord o a i j entry)) with
      | none => some (refuse s .tableFull)
      | some (s1, handles) =>
          let s2 := s1.setExchange i (some (newExchange o a j entry handles))
          match ({ Work.of s2 with submitting := some i }).run (handles.map (fun h => .offer h 0 .admission)) with
          | none => none
          | some w => some (accept w.st (submitResult i j entry a handles ps w.abandoned))

/-- How many exchange records an owner holds (R119). -/
def State.exchangesOf (s : State) (o : Owner) : Nat := (s.exchangeList.filter (fun x => x.2.owner == o)).length

/-- EXCHANGE SUBMIT's checks (R120, R121), search (R122, R123) and admission. -/
def State.submit (s : State) (o : Owner) (a : ExchangeParams) : Reply :=
  if exchangeOutOfRange a then some (refuse s .badParam)
  else if 3060000 < exchangeSpan a then some (refuse s .span)
  else
    match s.serving? o with
    | none => some (refuse s .notServing)
    | some serving =>
        if !s.timed serving then some (refuse s .notTimed)
        else if 3 ≤ s.exchangesOf o then some (refuse s .quota)
        else if (lowestFree s.su.exchanges).isNone then some (refuse s .tableFull)
        else if 40 < s.recordsOf o + a.count then some (refuse s .quota)
        else if 64 < s.recordList.length + a.count then some (refuse s .tableFull)
        else
          match s.placeExchange o serving a with
          | .notTimed => some (refuse s .notTimed)
          | .noRoom => some (refuse s .noRoom)
          | .chosen j entry ps => s.admitExchange o a j entry ps

/-- EXCHANGE SUBMIT (R120 to R125). -/
def execExchangeSubmit (p : Port) (a : ExchangeParams) (s : State) : Host.Outcome State Fault Refusal :=
  s.planCommand p (.exchangeSubmit p a) (fun t => withOwnerReply p t (fun o => t.submit o a))

/-! ### EXCHANGE CANCEL -/

/-- The exchange of an index for its owner (the order of R130 and R133). -/
def State.ownExchange (s : State) (o : Owner) (i : Nat) : Except Status Exchange :=
  if 3 < i then .error .badParam
  else
    match s.exchange? i with
    | none => .error .unknown
    | some x => if x.owner == o then .ok x else .error .notOwner

/-- A step's window is ACTIVE. -/
def State.stepActive (s : State) (x : Exchange) : Bool :=
  x.liveSteps.any (fun y => match s.record? y.2 with
    | some r => r.occ.state == .active
    | none => false)

/-- EXCHANGE CANCEL's checks and effect (R130). -/
def State.cancelExchange (s : State) (o : Owner) (i : Nat) : Answer :=
  match s.ownExchange o i with
  | .error st => refuse s st
  | .ok x =>
      if x.cancelPending then refuse s .state
      else if s.stepActive x then
        accept (s.setExchange i (some { x with cancelPending := true })) (bytesOfNat 1 1 ++ bytesOfNat 1 x.done)
      else
        accept ((Work.of s).abandon i x.lowestNotDone .cancelled none false).st
          (bytesOfNat 1 0 ++ bytesOfNat 1 x.done)

/-- EXCHANGE CANCEL (R130). -/
def execExchangeCancel (p : Port) (index : Nat) (s : State) : Host.Outcome State Fault Refusal :=
  s.planCommand p (.exchangeCancel p index) (fun t => withOwnerReply p t (fun o => some (t.cancelExchange o index)))

/-! ### READ EXCHANGE -/

/-- PLACED, RUNNING (R119). -/
def ExchangeState.code : ExchangeState → Nat
  | .placed => 0
  | .running => 1

/-- One step as READ EXCHANGE lists it (R133), with 0 for a handle that is absent (notes/assumptions/43). -/
def Step.result (x : Step) : List Byte :=
  flagByte x.tx ++ bytesOfNat 3 x.offset ++ bytesOfNat 3 x.length ++ bytesOfNat 1 x.profile ++ presentByte x.handle
    ++ flagByte (x.ending == some .done)

/-- The result of READ EXCHANGE, in the order of R133 (its length: notes/assumptions/9). -/
def Exchange.result (x : Exchange) : List Byte :=
  bytesOfNat 1 x.state.code ++ flagByte x.cancelPending ++ bytesOfNat 1 x.level ++ bytesOfTime x.earliest
    ++ bytesOfTime x.latest ++ bytesOfNat 1 x.candidate ++ bytesOfTime (x.earliest.add (x.candidate * 12000))
    ++ bytesOfNat 1 x.entry ++ bytesOfNat 1 x.done ++ bytesOfNat 1 x.steps.length ++ x.steps.flatMap Step.result

/-- READ EXCHANGE (R133). -/
def execReadExchange (p : Port) (index : Nat) (s : State) : Host.Outcome State Fault Refusal :=
  s.command p (.readExchange p index) (fun t =>
    withOwner p t (fun o =>
      match t.ownExchange o index with
      | .error st => refuse t st
      | .ok x => accept t x.result))

end Sys2Proof.Machine
end

