-- ==== Sys2Proof/Machine/HandoverCommands.lean ====
section
/-!
DEFINITION. The commands of chapter 8: HANDOVER (R137 to R144), HANDOVER CANCEL (R147), HANDOVER REVERT (R151) and READ
HANDOVER (R136), with the undoing of a rebinding that a failure shares with a cancel (R147, R149).
-/

namespace Sys2Proof.Machine

/-! ### The switch time -/

/-- The effective switch time and its clamped flag (R138). -/
def State.effectiveSwitch (s : State) (t : LocalTime) : LocalTime × Bool :=
  if switchLead ≤ ticksTo s.tb.lt t then (t, false) else (plus s.tb.lt switchLead, true)

/-- The switch time resolved on an entry, direction RX, with the present LT as reference (R138). -/
def State.resolveSwitch (s : State) (entry : Nat) (time : CellTime) : Option LocalTime :=
  match s.resolveOn entry time s.tb.lt false 0 with
  | .found lt _ => some lt
  | .untimed => none
  | .outOfReach => none

/-! ### Straddling exchanges -/

/-- The nominal start of a step's record. -/
def State.stepNominal (s : State) (x : Step) : Option LocalTime := (x.handle.bind s.record?).bind (·.occ.nominal)

/-- The exchange lies wholly before Ts: the last end is at or before it (R143). -/
def State.exchangeBefore (s : State) (x : Exchange) (ts : LocalTime) : Bool :=
  match x.steps.getLast? with
  | some last =>
      match s.stepNominal last with
      | some n => atOrBefore (plus n last.length) ts
      | none => false
  | none => false

/-- The exchange lies wholly after Ts: step 0 has not ended and starts at or after it (R143). -/
def State.exchangeAfter (s : State) (x : Exchange) (ts : LocalTime) : Bool :=
  match x.steps.head? with
  | some first =>
      match s.stepNominal first with
      | some n => !before n ts
      | none => false
  | none => false

/-- The failing step of a straddling exchange: the lowest not ended DONE whose nominal end lies after Ts (R143). -/
def State.straddlingStep (s : State) (x : Exchange) (ts : LocalTime) : Nat :=
  (x.steps.findIdx? (fun y =>
    !(y.ending == some .done)
      && match s.stepNominal y with
        | some n => before ts (plus n y.length)
        | none => false)).getD x.lowestNotDone

/-- SU abandons the owner's exchanges that straddle Ts, in ascending order of index, and counts them (R143). -/
def Work.abandonStraddling (w : Work) (o : Owner) (source : Nat) (ts : LocalTime) :
    List (Nat × Exchange) → Work × Nat
  | [] => (w, 0)
  | (i, x) :: rest =>
      if x.owner == o && x.entry == source && !w.st.exchangeBefore x ts && !w.st.exchangeAfter x ts then
        let done := (w.abandon i (w.st.straddlingStep x ts) .straddling none true).abandonStraddling o source ts rest
        (done.1, done.2 + 1)
      else w.abandonStraddling o source ts rest

/-! ### Acceptance -/

/-- The members of the rebinding (R141). Each is then resolved by R140 (notes/assumptions/52). -/
def State.rebindingMembers (s : State) (o : Owner) (ho : Handover) : List (Nat × Record) :=
  s.recordList.filter (fun x =>
    x.2.owner == o && x.2.binding == .followsServing && x.2.occ.state == .granted && x.2.occ.entry == ho.source
      && !before (x.2.occ.nominal.getD x.2.occ.placed) ho.ts)

/-- The three counts of R57. -/
def Work.counts (w : Work) : List Byte := countBytes w.moved ++ countBytes w.missed ++ countBytes w.lost

/-- An accepted HANDOVER or HANDOVER REVERT (R139, R141, R143, R144). -/
def State.acceptHandover (s : State) (o : Owner) (ho : Handover) : Reply :=
  let s1 := s.setHandover o (some ho)
  let straddled := (Work.of s1).abandonStraddling o ho.source ho.ts s1.exchangeList
  let s2 := straddled.1.st.refreshWindows
  let ordered := s2.reresolve (s2.rebindingMembers o ho) (fun _ => ho.source)
  match (Work.of ordered.1).run ordered.2 with
  | none => none
  | some w =>
      some (accept w.st (ltBytes ho.ts ++ flagByte ho.clamped ++ w.counts ++ bytesOfNat 1 straddled.2))

/-- Steps 5 to 9 of R137, then the acceptance. -/
def State.handoverTo (s : State) (o : Owner) (source target : Nat) (time : CellTime) : Reply :=
  match s.cell? target with
  | none => some (refuse s .unknown)
  | some c =>
      if !(c.owner == o) then some (refuse s .notOwner)
      else if !(c.state == .neighbour) then some (refuse s .state)
      else if c.anchor.isNone then some (refuse s .notTimed)
      else
        match s.resolveSwitch source time with
        | none => some (refuse s .notTimed)
        | some t =>
            let ts := s.effectiveSwitch t
            s.acceptHandover o ⟨.handover, source, target, time, ts.1, ts.2⟩

/-- HANDOVER's checks (R137) and effects (R139). -/
def State.handover (s : State) (o : Owner) (target : Nat) (time : CellTime) : Reply :=
  if 23 < target || !time.valid then some (refuse s .badParam)
  else
    match s.serving? o with
    | none => some (refuse s .notServing)
    | some source =>
        if (s.handover? o).isSome then some (refuse s .hoPending) else s.handoverTo o source target time

/-- HANDOVER (R137 to R144). -/
def execHandover (p : Port) (target : Nat) (time : CellTime) (s : State) : Host.Outcome State Fault Refusal :=
  s.planCommand p (.handover p target time) (fun t => withOwnerReply p t (fun o => t.handover o target time))

/-! ### Revert -/

/-- Steps 5 and 6 of R151, then the acceptance. -/
def State.revertTo (s : State) (o : Owner) (v : RevertWindow) (time : CellTime) : Reply :=
  match s.serving? o with
  | none => some (refuse s .notTimed)
  | some source =>
      if !s.timed v.retiring then some (refuse s .notTimed)
      else
        match s.resolveSwitch source time with
        | none => some (refuse s .notTimed)
        | some t =>
            let ts := s.effectiveSwitch t
            if before ts.1 v.closeLt then s.acceptHandover o ⟨.revert, source, v.retiring, time, ts.1, ts.2⟩
            else some (refuse s .noHo)

/-- HANDOVER REVERT's checks and effects (R151). -/
def State.handoverRevert (s : State) (o : Owner) (time : CellTime) : Reply :=
  if !time.valid then some (refuse s .badParam)
  else if (s.handover? o).isSome then some (refuse s .hoPending)
  else
    match s.revert? o with
    | none => some (refuse s .noHo)
    | some v => s.revertTo o v time

/-- HANDOVER REVERT (R151). -/
def execHandoverRevert (p : Port) (time : CellTime) (s : State) : Host.Outcome State Fault Refusal :=
  s.planCommand p (.handoverRevert p time) (fun t => withOwnerReply p t (fun o => t.handoverRevert o time))

/-! ### Cancel -/

/-- The follows-serving records of an owner that are GRANTED or WAITING on an entry (step 2 of R147, R146, R149). -/
def State.followersOn (s : State) (o : Owner) (entry : Nat) : List (Nat × Record) :=
  (s.membersOn entry).filter (fun x => x.2.owner == o && x.2.binding == .followsServing)

/-- The record becomes NONE, and what stands on the target is re-resolved on the source (steps 1 and 2 of R147). -/
def State.undoHandover (s : State) (o : Owner) (ho : Handover) : Option Work :=
  let s1 := s.setHandover o none
  let ordered := s1.reresolve (s1.followersOn o ho.target) (fun _ => ho.source)
  (Work.of ordered.1).run ordered.2

/-- HANDOVER CANCEL's check and effects (R147). -/
def State.handoverCancel (s : State) (o : Owner) : Reply :=
  match s.handover? o with
  | none => some (refuse s .noHo)
  | some ho => (s.undoHandover o ho).map (fun w => accept w.st w.counts)

/-- HANDOVER CANCEL (R147). -/
def execHandoverCancel (p : Port) (s : State) : Host.Outcome State Fault Refusal :=
  s.planCommand p (.handoverCancel p) (fun t => withOwnerReply p t (fun o => t.handoverCancel o))

/-! ### READ HANDOVER -/

/-- HANDOVER, REVERT (section 8.1). -/
def HandoverKind.code : HandoverKind → Nat
  | .handover => 0
  | .revert => 1

/-- A PENDING record as READ HANDOVER lists it; an absent one reads 0 (R136). -/
def handoverBytes : Option Handover → List Byte
  | none => bytesOfNat 16 0
  | some ho =>
      bytesOfNat 1 1 ++ bytesOfNat 1 ho.kind.code ++ bytesOfNat 1 ho.source ++ bytesOfNat 1 ho.target
        ++ bytesOfTime ho.time ++ ltBytes ho.ts ++ flagByte ho.clamped

/-- An OPEN revert window as READ HANDOVER lists it; a closed one reads 0 (R136). -/
def revertBytes : Option RevertWindow → List Byte
  | none => bytesOfNat 8 0
  | some v => bytesOfNat 1 1 ++ bytesOfNat 1 v.retiring ++ ltBytes v.closeLt

/-- READ HANDOVER (R136). -/
def execReadHandover (p : Port) (which : Option Nat) (s : State) : Host.Outcome State Fault Refusal :=
  s.command p (.readHandover p which) (fun t =>
    match readOwner p which with
    | some o => accept t (handoverBytes (t.handover? o) ++ revertBytes (t.revert? o))
    | none => refuse t .badParam)

end Sys2Proof.Machine
end

