-- ==== Sys2Proof/Machine/SleepCommands.lean ====
section
/-!
DEFINITION. The commands of chapter 9: VOTE (R155), SET SLEEP (R166), READ SLEEP (R167) and CALIBRATE (R170).
-/

namespace Sys2Proof.Machine

/-! ### VOTE -/

/-- The vote a parameter names: 0 HOLD, 1 ALLOW (R155). -/
def voteOfByte (value : Nat) : Option Vote :=
  match value with
  | 0 => some .hold
  | 1 => some .allow
  | _ => none

/-- How many enabled ports vote ALLOW (R155). -/
def State.allowing (s : State) : Nat :=
  ([s.pi.subA, s.pi.subB, s.pi.policy].filter (fun x => x.enabled && x.vote == some .allow)).length

/-- VOTE's check and effect (R155). -/
def State.castVote (s : State) (p : Port) (value : Nat) : Answer :=
  match voteOfByte value with
  | none => refuse s .badParam
  | some v =>
      let s1 := s.setPort p { s.port p with vote := some v }
      accept s1 (bytesOfNat 1 (voteCode (some v)) ++ bytesOfNat 1 s1.allowing)

/-- VOTE (R155). -/
def execVote (p : Port) (value : Nat) (s : State) : Host.Outcome State Fault Refusal :=
  s.command p (.vote p value) (fun t => t.castVote p value)

/-! ### SET SLEEP -/

/-- A number clamped to a range at the nearest bound. -/
def clamp (low high n : Nat) : Nat := max low (min high n)

/-- The eight parameters clamped to their ranges (the table of R166). -/
def clampSleep (a : SleepParams) : SleepParams where
  lead := clamp 0 240000 a.lead
  warmUp := clamp 1 255 a.warmUp
  spanMin := clamp 8 65535 a.spanMin
  spanMax := clamp 256 16777215 a.spanMax
  uncertainty := clamp 1 500 a.uncertainty
  exponent := clamp 10 16 a.exponent
  shift := clamp 0 3 a.shift
  autoInterval := clamp 0 255 a.autoInterval

/-- The parameters in the widths of the table of R166. -/
def sleepParamBytes (a : SleepParams) : List Byte :=
  bytesOfNat 3 a.lead ++ bytesOfNat 1 a.warmUp ++ bytesOfNat 2 a.spanMin ++ bytesOfNat 3 a.spanMax
    ++ bytesOfNat 2 a.uncertainty ++ bytesOfNat 1 a.exponent ++ bytesOfNat 1 a.shift ++ bytesOfNat 1 a.autoInterval

/-- One bit per parameter, set where the value sent was clamped (R166). -/
def sleepClampFlags (a : SleepParams) : BitVec 8 :=
  let c := clampSleep a
  flagBits [!(c.lead == a.lead), !(c.warmUp == a.warmUp), !(c.spanMin == a.spanMin), !(c.spanMax == a.spanMax),
    !(c.uncertainty == a.uncertainty), !(c.exponent == a.exponent), !(c.shift == a.shift),
    !(c.autoInterval == a.autoInterval)]

/-- SET SLEEP's effect (R166). -/
def State.setSleep (s : State) (a : SleepParams) : Answer :=
  accept { s with sc := { s.sc with params := clampSleep a, spanShort := false } }
    (sleepParamBytes (clampSleep a) ++ [sleepClampFlags a])

/-- SET SLEEP (R166). -/
def execSetSleep (p : Port) (a : SleepParams) (s : State) : Host.Outcome State Fault Refusal :=
  s.command p (.setSleep p a) (fun t => t.setSleep a)

/-! ### READ SLEEP -/

/-- A port's enabled flag and vote (R167). -/
def PortState.voteBytes (x : PortState) : List Byte := flagByte x.enabled ++ bytesOfNat 1 (voteCode x.vote)

/-- The last sleep record, in the order of R167. -/
def SleepRecord.result (x : SleepRecord) : List Byte :=
  ltBytes x.entryLt ++ bytesOfNat 3 x.span ++ flagByte x.clamped ++ flagByte x.noTarget ++ bytesOfNat 1 x.kind.code
    ++ bytesOfNat 3 x.wakeCount ++ bytesOfNat 5 x.advance ++ bytesOfNat 2 x.widening ++ bytesOfNat 1 x.reason.code
    ++ bytesOfNat 1 x.port

/-- The last calibration record, in the order of section 9.4. -/
def CalRecord.result (x : CalRecord) : List Byte :=
  bytesOfNat 1 x.outcome.code ++ bytesOfNat 1 x.exponent ++ bytesOfNat 4 x.count ++ bytesOfNat 4 x.measured
    ++ bytesOfInt 4 x.ppm ++ ltBytes x.lt ++ flagByte x.auto

/-- The result of READ SLEEP, in the order of R167; the three ports stand in the order SUB-A, SUB-B, POLICY
(notes/assumptions/45). -/
def State.sleepResult (s : State) : List Byte :=
  sleepParamBytes s.sc.params ++ s.pi.subA.voteBytes ++ s.pi.subB.voteBytes ++ s.pi.policy.voteBytes
    ++ flagByte s.sc.spanShort ++ bytesOfNat 1 s.sc.wakes ++ s.sc.last.result ++ s.tb.lastCal.result

/-- READ SLEEP (R167). -/
def execReadSleep (p : Port) (s : State) : Host.Outcome State Fault Refusal :=
  s.command p (.readSleep p) (fun t => accept t t.sleepResult)

/-! ### CALIBRATE -/

/-- CALIBRATE's check and effect (R170). -/
def State.calibrate (s : State) : Answer :=
  if s.tb.run.isSome then refuse s .busyCal
  else
    accept (s.startCalibration false)
      (bytesOfNat 1 s.sc.params.exponent ++ bytesOfNat 3 (2 ^ s.sc.params.exponent))

/-- CALIBRATE (R170). -/
def execCalibrate (p : Port) (s : State) : Host.Outcome State Fault Refusal :=
  s.command p (.calibrate p) (fun t => t.calibrate)

end Sys2Proof.Machine
end

