-- ==== Sys2Proof/Machine/PortCommands.lean ====
section
/-!
DEFINITION. The commands of chapter 10: FETCH EVENTS (R185), ENABLE PORT (R186), DISABLE PORT (R187), RESET PORT (R188)
and RESET CHIP (R189).
-/

namespace Sys2Proof.Machine

/-! ### FETCH EVENTS -/

/-- The records a fetch takes: up to six from the head (R185). -/
def PortState.fetched (x : PortState) : List Event := x.queue.take 6

/-- The result of FETCH EVENTS (R185). -/
def PortState.fetchResult (x : PortState) : List Byte :=
  bytesOfNat 1 x.fetched.length ++ bytesOfNat 1 (x.queue.length - x.fetched.length) ++ bytesOfNat 1 x.overflowCount
    ++ x.fetched.flatMap Event.bytes

/-- FETCH EVENTS (R185). -/
def execFetchEvents (p : Port) (s : State) : Host.Outcome State Fault Refusal :=
  s.command p (.fetchEvents p) (fun t =>
    accept (t.setPort p { t.port p with queue := (t.port p).queue.drop 6, overflowCount := 0 })
      (t.port p).fetchResult)

/-! ### ENABLE PORT, DISABLE PORT -/

/-- A port emptied: no records, no overflow, no flags (R187, R188). -/
def PortState.emptied (x : PortState) : PortState :=
  { x with flags := ⟨false, false, false⟩, overflowAnew := false, queue := [], overflowCount := 0 }

/-- A port as ENABLE PORT leaves it (R186). -/
def PortState.enable (x : PortState) : PortState :=
  { x.emptied with enabled := true, slot := .empty, buffer := none, vote := some .hold }

/-- A port as DISABLE PORT leaves it (R187). -/
def PortState.disable (x : PortState) : PortState :=
  { x.emptied with enabled := false, slot := .disabled, buffer := none, vote := none }

/-- ENABLE PORT's check and effect (R186). -/
def State.enablePort (s : State) (which : Nat) : Answer :=
  match ownerOfByte which with
  | none => refuse s .badParam
  | some o =>
      if (s.port o.port).enabled then accept s (bytesOfNat 1 1)
      else accept (s.setPort o.port (s.port o.port).enable) (bytesOfNat 1 0)

/-- ENABLE PORT (R186). -/
def execEnablePort (p : Port) (which : Nat) (s : State) : Host.Outcome State Fault Refusal :=
  s.command p (.enablePort p which) (fun t => t.enablePort which)

/-- DISABLE PORT's check and effects; on a port already disabled it changes nothing (R187). -/
def State.disablePort (s : State) (which : Nat) : Answer :=
  match ownerOfByte which with
  | none => refuse s .badParam
  | some o =>
      if (s.port o.port).enabled then
        let s1 := s.portReset o
        accept (s1.setPort o.port (s1.port o.port).disable) (bytesOfNat 1 1)
      else accept s (bytesOfNat 1 0)

/-- DISABLE PORT (R187). -/
def execDisablePort (p : Port) (which : Nat) (s : State) : Host.Outcome State Fault Refusal :=
  s.planCommand p (.disablePort p which) (fun t => some (t.disablePort which))

/-! ### RESET PORT, RESET CHIP -/

/-- RESET PORT's effects (R188). -/
def State.resetPort (s : State) (o : Owner) : Answer :=
  let s1 := s.portReset o
  let s2 := s1.setPort o.port { (s1.port o.port).emptied with vote := some .hold }
  accept (s2.postPort .policy .portReset o.code .none 0 0) []

/-- RESET PORT (R188). -/
def execResetPort (p : Port) (s : State) : Host.Outcome State Fault Refusal :=
  s.planCommand p (.resetPort p) (fun t => withOwnerReply p t (fun o => some (t.resetPort o)))

/-- RESET CHIP (R189). The chip reset leaves POLICY's slot EMPTY, so there is no DONE response. -/
def execResetChip (p : Port) (s : State) : Host.Outcome State Fault Refusal :=
  s.command p (.resetChip p) (fun t => accept t.chipReset [])

end Sys2Proof.Machine
end

