-- ==== Sys2Proof/Machine/ExpiryEvents.lean ====
section
/-!
DEFINITION. The rows taken when LT reaches an instant of CT or HU: the anchor expiry (R30, R58, R149), the switches
(R145, R146, R151) and the close of the revert window (R150).
-/

namespace Sys2Proof.Machine

/-! ### Anchor expiry -/

/-- The occurrences RT treats at an expiry of an entry, in ascending order of handle (R58). -/
def State.expiryTasks (s : State) (entry : Nat) : List Task := s.recordList.map (fun x => .expire x.1 entry)

/-- HU fails a pending handover whose target has gone stale (R149). -/
def Work.failHandover (w : Work) (o : Owner) (entry : Nat) : Option State :=
  match w.st.handover? o with
  | none => some w.st
  | some ho =>
      if ho.target == entry then
        (w.st.undoHandover o ho).map (fun u =>
          u.st.post o .hoFailed ho.target .stale (hoFailedFlags (ho.kind == .revert)) (sat16 u.moved))
      else some w.st

/-- The anchor expiry of an entry: the anchor goes, STALE is posted with the number of occurrences RT ends, RT ends
them, and HU fails a handover to the entry (R30). -/
def State.expireAnchor (s : State) (entry : Nat) (c : Cell) : Option State :=
  let s1 := s.setCell entry (some { c with anchor := none })
  match (Work.of s1).run (s1.expiryTasks entry) with
  | none => none
  | some counted =>
      let s2 := s1.post c.owner .stale entry .none 0 (sat16 counted.missed)
      match (Work.of s2).run (s2.expiryTasks entry) with
      | none => none
      | some w => w.failHandover c.owner entry

/-- The entry has an anchor whose expiry LT has been reached. -/
def State.expiryDue (s : State) (entry : Nat) : Option Cell :=
  match s.cell? entry with
  | none => none
  | some c =>
      match c.anchor with
      | none => none
      | some a => if s.counting && s.reached a.expiry then some c else none

/-- ANCHOR_EXPIRY (R30). -/
def execAnchorExpiry (index : Nat) (s : State) : Host.Outcome State Fault Refusal :=
  match s.expiryDue index with
  | none => .next s
  | some c => s.cascade true (s.expireAnchor index c)

/-! ### Switches -/

/-- A pending handover of a kind whose Ts has been reached. -/
def State.switchDue (s : State) (o : Owner) (kind : HandoverKind) : Option Handover :=
  (s.handover? o).filter (fun ho => s.counting && ho.kind == kind && s.reached ho.ts)

/-- The owner's WAITING follows-serving occurrences on the source are re-resolved on the new SERVING entry (R146). -/
def State.resolveWaiting (s : State) (o : Owner) (ho : Handover) : Option State :=
  let waiting := (s.followersOn o ho.source).filter (fun x => x.2.occ.state == .waiting)
  let ordered := s.reresolve waiting (fun _ => ho.target)
  ((Work.of ordered.1).run ordered.2).map (·.st)

/-- SWITCHED (R145). -/
def State.postSwitched (s : State) (o : Owner) (ho : Handover) (third : Nat) : State :=
  s.post o .switched ho.target .none (switchedFlags (ho.kind == .revert) ho.clamped) (low16 (ho.source + 256 * third))

/-- The switch of a HANDOVER, steps 1 to 5 (R145). -/
def State.switchOver (s : State) (o : Owner) (ho : Handover) : State :=
  let s1 := match s.revert? o with
    | some v => s.setCellState v.retiring .neighbour
    | none => s
  let s2 := (s1.setCellState ho.source .retiring).setCellState ho.target .serving
  let s3 := s2.setRevert o (some ⟨plus ho.ts cycleTicks, ho.source⟩)
  (s3.clearTriggers o).setHandover o none

/-- The switch of a HANDOVER, whole (R145, R146). -/
def State.takeSwitch (s : State) (o : Owner) (ho : Handover) : Option State :=
  let third := match s.revert? o with
    | some v => v.retiring
    | none => 255
  ((s.switchOver o ho).resolveWaiting o ho).map (fun t => t.postSwitched o ho third)

/-- HANDOVER_SWITCH (R145). -/
def execHandoverSwitch (o : Owner) (s : State) : Host.Outcome State Fault Refusal :=
  match s.switchDue o .handover with
  | none => .next s
  | some ho => s.cascade true (s.takeSwitch o ho)

/-- The switch of a REVERT, up to the re-resolution (R151). -/
def State.switchBack (s : State) (o : Owner) (ho : Handover) : State :=
  let s1 := (s.setCellState ho.target .serving).setCellState ho.source .neighbour
  ((s1.setRevert o none).clearTriggers o).setHandover o none

/-- The switch of a REVERT, whole (R151). -/
def State.takeRevert (s : State) (o : Owner) (ho : Handover) : Option State :=
  ((s.switchBack o ho).resolveWaiting o ho).map (fun t => t.postSwitched o ho 255)

/-- REVERT_SWITCH (R151). -/
def execRevertSwitch (o : Owner) (s : State) : Host.Outcome State Fault Refusal :=
  match s.switchDue o .revert with
  | none => .next s
  | some ho => s.cascade true (s.takeRevert o ho)

/-! ### Close -/

/-- The revert window of an owner closes (R150). -/
def State.closeRevert (s : State) (o : Owner) (v : RevertWindow) : State :=
  ((s.setCellState v.retiring .neighbour).setRevert o none).post o .revertClosed v.retiring .none 0 0

/-- An OPEN revert window whose close LT has been reached. -/
def State.closeDue (s : State) (o : Owner) : Option RevertWindow :=
  (s.revert? o).filter (fun v => s.counting && s.reached v.closeLt)

/-- REVERT_CLOSE (R150). -/
def execRevertClose (o : Owner) (s : State) : Host.Outcome State Fault Refusal :=
  s.event ((s.closeDue o).map (s.closeRevert o))

end Sys2Proof.Machine
end

