-- ==== Sys2Proof/Machine/WindowEvents.lean ====
section
/-!
DEFINITION. The rows taken when LT reaches an instant of WC: the notice (R97), the load (R89), the rise (R93), the end of
a part (R94) and a cut (R79).
-/

namespace Sys2Proof.Machine

/-- A window whose notice instant has been reached. -/
def State.noticeDue (s : State) (h : Nat) : Option Record :=
  match s.record? h with
  | none => none
  | some r =>
      match r.occ.notice with
      | none => none
      | some n => if s.counting && s.reached n && r.occ.state.inTimeline then some r else none

/-- WINDOW_SOON (R97). -/
def execWindowSoon (handle : Nat) (s : State) : Host.Outcome State Fault Refusal :=
  s.event ((s.noticeDue handle).map (s.postNotice handle))

/-- LOAD_BEGIN (R89, R90). -/
def execLoadBegin (s : State) : Host.Outcome State Fault Refusal :=
  s.event (s.loadDue.map (fun x => s.beginLoad x.1 x.2))

/-- The load in flight, once its 160 ticks have gone. -/
def State.loadDone (s : State) : Option Load :=
  s.wc.load.filter (fun l => s.counting && s.reached (plus l.start loadTicks))

/-- LOAD_COMPLETE (R88, R89). -/
def execLoadComplete (s : State) : Host.Outcome State Fault Refusal :=
  s.event (s.loadDone.map (fun l => s.finishLoad l (plus l.start loadTicks)))

/-- ACTIVATION (R93, R98, R99). -/
def execActivation (s : State) : Host.Outcome State Fault Refusal := s.event (s.riseDue.map s.activate)

/-- The ACTIVE window, where no cut is scheduled on it and LT has reached the end of its part. -/
def State.partDone (s : State) : Option (Nat × Record) :=
  s.active?.filter (fun x => s.counting && x.2.occ.cutAt.isNone && s.reached x.2.occ.endLt)

/-- The ACTIVE part ends at its end: WINDOW_END, then what follows the ending DONE (R94). -/
def State.takeEnd (s : State) (h : Nat) (r : Record) : Option State :=
  let s1 := (s.endPart h r.occ.endLt).postWindowEnd h .done false false false
  ((Work.of s1.refreshWindows).run [.ended h r.occ.k .done]).map (·.st)

/-- PART_END (R94). -/
def execPartEnd (s : State) : Host.Outcome State Fault Refusal :=
  match s.partDone with
  | none => .next s
  | some (h, r) => s.cascade true (s.takeEnd h r)

/-- The ACTIVE window with the scheduled cut time that LT has reached. -/
def State.cutDue (s : State) : Option (Nat × Record × LocalTime) :=
  match s.active? with
  | none => none
  | some (h, r) =>
      match r.occ.cutAt with
      | none => none
      | some c => if s.counting && s.reached c then some (h, r, c) else none

/-- The cut is taken: the remainder is placed, or what follows the ending (R79). -/
def State.takeCutTime (s : State) (h : Nat) (r : Record) (c : LocalTime) : Option State :=
  let cut := s.takeCut h c
  let tasks : List Task := match cut.2 with
    | some e => [.ended h r.occ.k e]
    | none => []
  ((Work.of cut.1.refreshWindows).run tasks).map (·.st)

/-- CUT_TIME (R79, R80). -/
def execCutTime (s : State) : Host.Outcome State Fault Refusal :=
  match s.cutDue with
  | none => .next s
  | some (h, r, c) => s.cascade true (s.takeCutTime h r c)

end Sys2Proof.Machine
end

