-- ==== Sys2Proof/Machine/SleepEvents.lean ====
section
/-!
DEFINITION. The rows of the sleep cycle: SLEEP_ENTRY (R156), ENTRY_EDGE (R157 to R160), OSCILLATOR_WARM_UP (R162),
TIMER_WAKE (R162) and COMMAND_WAKE (R163).
-/

namespace Sys2Proof.Machine

/-! ### Entry -/

/-- SLEEP_ENTRY: the entry condition holds in AWAKE with the span-short mark clear (R156). -/
def execSleepEntry (s : State) : Host.Outcome State Fault Refusal :=
  s.event
    (if s.sc.state == .awake && s.entryCondition && !s.sc.spanShort then
      some { s with sc := { s.sc with state := .entering } }
    else none)

/-- WC at an entry edge: a word before its latch tick is abandoned, one past it counts as completed (R92). -/
def State.settleLoad (s : State) : State :=
  match s.wc.load with
  | none => s
  | some l =>
      if ticksTo l.start s.tb.lt < latchTick then
        { s with wc := { s.wc with load := none, lastLoaded := none, writtenSince := false } }
      else s.finishLoad l s.tb.lt

/-- SC goes ASLEEP with a sleep in hand (R160). -/
def State.fallAsleep (s : State) (hand : SleepHand) : State :=
  let s1 := s.settleLoad
  { s1 with sc := { s1.sc with state := .asleep, hand := some hand, counter := 0, early := none, refEn := false } }

/-- The entry edge candidate: a sleep, or AWAKE with the span-short mark set (R157, R159, R160). -/
def State.entryEdge (s : State) : State :=
  match s.planSleep with
  | none => { s with sc := { s.sc with state := .awake, spanShort := true } }
  | some hand => s.fallAsleep hand

/-- ENTRY_EDGE (R157, R160). -/
def execEntryEdge (s : State) : Host.Outcome State Fault Refusal :=
  s.event (if s.sc.state == .entering then some s.entryEdge else none)

/-! ### Wakes -/

/-- OSCILLATOR_WARM_UP: the sleep counter reaches S − Ws (R162). The row is the edge that brings it there, or follows on
that edge where SLK_IN_EDGE has counted it (R163; notes/assumptions/47). -/
def execOscillatorWarmUp (s : State) : Host.Outcome State Fault Refusal :=
  s.event
    (match s.sc.hand with
      | none => none
      | some hand =>
          let count := hand.span - hand.warmUp
          if s.sc.state == .asleep && (s.sc.counter == count || s.sc.counter + 1 == count) then
            some { s with sc := { s.sc with state := .waking, refEn := true, counter := count } }
          else none)

/-- The W_pending of a wake: the margin for a timer wake of a sleep with a target, else by the advance (R161). -/
def SleepHand.widening (hand : SleepHand) (timer : Bool) (advance : Nat) : Nat :=
  if timer && !hand.noTarget then hand.margin else marginOf advance hand.uncertainty

/-- The auto-calibration test of a wake (R171). -/
def State.autoCalibrate (s : State) : State :=
  let s1 := { s with sc := { s.sc with wakes := min (s.sc.wakes + 1) 255 } }
  if !(s.sc.params.autoInterval == 0) && decide (s.sc.params.autoInterval ≤ s1.sc.wakes) && s.tb.run.isNone then
    s1.startCalibration true
  else s1

/-- The wake, steps 1 to 5 of R162, with the last sleep record (R167); `port` is 0 for a timer wake. -/
def State.wake (s : State) (hand : SleepHand) (count : Nat) (timer : Bool) (port : Nat) : State :=
  let advance := s.sleepAdvance hand count
  let widening := hand.widening timer advance
  let s1 := s.advanceLt hand count
  let s2 :=
    { s1 with
      wc := { s1.wc with pendingWidening := widening, wakeLt := s1.tb.lt }
      sc := { s1.sc with
        state := .awake, refEn := true, counter := count, hand := none, early := none
        last := ⟨hand.entryLt, hand.span, hand.clamped, hand.noTarget, hand.kind, count, advance, widening,
          if timer then .timer else .command, port⟩ } }
  let s3 := s2.postPort .policy .woke port (if timer then .timer else .command)
    (wokeFlags hand.uncalibrated hand.clamped hand.noTarget) (low16 widening)
  s3.autoCalibrate

/-- The frames held across the sleep are checked (R179). -/
def State.checkHeld (s : State) : State := ((s.checkFrame .subA).checkFrame .subB).checkFrame .policy

/-- TIMER_WAKE: the sleep counter reaches S in WAKING (R162). -/
def execTimerWake (s : State) : Host.Outcome State Fault Refusal :=
  s.event
    (match s.sc.hand, s.sc.early with
      | some hand, none =>
          if s.sc.state == .waking && s.sc.counter + 1 == hand.span then
            some (s.wake hand hand.span true 0).checkHeld
          else none
      | _, _ => none)

/-- COMMAND_WAKE: the sleep counter reaches an early wake count (R163). -/
def execCommandWake (s : State) : Host.Outcome State Fault Refusal :=
  s.event
    (match s.sc.hand, s.sc.early with
      | some hand, some (count, p) =>
          if s.sc.state == .waking && s.sc.counter + 1 == count then
            some (s.wake hand count false p.code).checkHeld
          else none
      | _, _ => none)

end Sys2Proof.Machine
end

