-- ==== Sys2Proof/Machine/ClockEvents.lean ====
section
/-!
DEFINITION. The rows of the two clocks: GATE_OPEN (R172), GATE_CLOSE (R173, R174), REF_IN_TICK (R1, R172) and
SLK_IN_EDGE (R160, R172).
-/

namespace Sys2Proof.Machine

/-! ### The gate -/

/-- GATE_OPEN: the first slow edge of a calibration (R172). -/
def execGateOpen (s : State) : Host.Outcome State Fault Refusal :=
  s.event
    (match s.tb.run with
      | none => none
      | some run =>
          if run.gate == .waitingEdge then
            some { s with tb := { s.tb with run := some { run with gate := .counting, edges := 0, count := 0 } } }
          else none)

/-- The measured ratio C × 2^(16 − n) (R173). -/
def CalRun.measured (run : CalRun) : Nat := run.count * 2 ^ (16 - run.exponent)

/-- The deviation in ppm, an exact half away from zero (R173). -/
def ppmOf (measured : Nat) : Int := roundHalfAway (((measured : Int) - 48000000) * 1000000) 48000000

/-- The measured ratio lies inside 47,760,000..48,240,000 (R173). -/
def ratioAccepted (measured : Nat) : Bool := decide (47760000 ≤ measured) && decide (measured ≤ 48240000)

/-- The filtered ratio: old + trunc((measured − old) / 2^k) (R173). -/
def filtered (old measured k : Nat) : Nat :=
  ((old : Int) + truncToward ((measured : Int) - (old : Int)) (2 ^ k)).toNat

/-- A ppm saturated to 16 bits of two's complement (R174). -/
def satPpm (x : Int) : BitVec 16 := BitVec.ofInt 16 (max (-32768) (min 32767 x))

/-- The record of a run's outcome (R169). -/
def State.calRecord (s : State) (run : CalRun) (outcome : CalOutcome) : CalRecord :=
  ⟨outcome, run.exponent, run.count, run.measured, ppmOf run.measured, s.tb.lt, run.auto⟩

/-- TB evaluates a closed gate (R173, R174). -/
def State.closeGate (s : State) (run : CalRun) : State :=
  let m := run.measured
  if ratioAccepted m then
    let s1 :=
      { s.clearSpanShort with
        tb := { s.tb with
          ratio := if s.tb.uncalibrated then m else filtered s.tb.ratio m s.sc.params.shift
          uncalibrated := false
          run := none
          lastCal := s.calRecord run .done } }
    s1.postPort .policy .calDone run.exponent .none (calFlags s.tb.uncalibrated run.auto) (satPpm (ppmOf m))
  else
    let s1 := { s.clearSpanShort with tb := { s.tb with run := none, lastCal := s.calRecord run .rejected } }
    s1.postPort .policy .calRejected run.exponent .none (calFlags false run.auto) (satPpm (ppmOf m))

/-- GATE_CLOSE: the 2^n-th slow edge of the gate (R172, R173). -/
def execGateClose (s : State) : Host.Outcome State Fault Refusal :=
  s.event
    (match s.tb.run with
      | none => none
      | some run =>
          if run.gate == .counting && run.edges + 1 == 2 ^ run.exponent then some (s.closeGate run) else none)

/-! ### Ticks and edges -/

/-- REF_IN_TICK: LT counts while the part is AWAKE or ENTERING (R1), and so does an open gate (R172). -/
def execRefInTick (s : State) : Host.Outcome State Fault Refusal :=
  if s.counting then
    .next
      { s with
        tb := { s.tb with
          lt := s.tb.lt + 1
          run := s.tb.run.map (fun run =>
            if run.gate == .counting then { run with count := run.count + 1 } else run) } }
  else .next s

/-- A slow edge that neither opens nor closes a gate. -/
def CalRun.plainEdge (run : CalRun) : Bool := run.gate == .counting && !(run.edges + 1 == 2 ^ run.exponent)

/-- A slow edge that a sleep counts and that does not end it; the one that brings the count to S − Ws may be counted
here, and OSCILLATOR_WARM_UP follows on it (R160, R163; notes/assumptions/47). -/
def SleepController.plainEdge (sc : SleepController) : Bool :=
  match sc.hand with
  | none => false
  | some hand =>
      match sc.state with
      | .asleep => decide (sc.counter < hand.span - hand.warmUp)
      | .waking => !(sc.counter + 1 == (sc.early.map (·.1)).getD hand.span)
      | .awake => false
      | .entering => false

/-- SLK_IN_EDGE: every other slow edge; it counts in a sleep (R160) or in an open gate (R172). -/
def execSlkInEdge (s : State) : Host.Outcome State Fault Refusal :=
  .next
    { s with
      sc := { s.sc with counter := if s.sc.plainEdge then s.sc.counter + 1 else s.sc.counter }
      tb := { s.tb with run := s.tb.run.map (fun run => if run.plainEdge then { run with edges := run.edges + 1 } else run) } }

end Sys2Proof.Machine
end

