-- ==== Sys2Proof/Machine/PinEvents.lean ====
section
/-!
DEFINITION. The rows that are edges on pins: the resets (R2, R189), the chip selects (R176 to R179) and the strobes
(R12 to R14).
-/

namespace Sys2Proof.Machine

/-- POWER_ON_RESET: every block takes its power-on values (R2). -/
def execPowerOnReset (s : State) : Host.Outcome State Fault Refusal := .next s.powerOn

/-- CHIP_RESET: RESET_N falls and the chip reset is made (R189). -/
def execChipReset (s : State) : Host.Outcome State Fault Refusal :=
  if s.resetN then .next { s.chipReset with resetN := false } else .next s

/-- RESET_N_RELEASE: RESET_N rises and the reset effects stop being held (R189). -/
def execResetNRelease (s : State) : Host.Outcome State Fault Refusal := .next { s with resetN := true }

/-- CS_N_FALL: PI copies the response frame and the flags (R176). -/
def execCsNFall (p : Port) (s : State) : Host.Outcome State Fault Refusal :=
  match (s.port p).transaction with
  | none => .next (s.openTransaction p)
  | some _ => .next s

/-- The transaction of a port ends: shown flags are cleared, then the bits are judged (R176, R177). -/
def State.closeTransaction (s : State) (p : Port) (t : Transaction) (bits : List Bool) : State :=
  let x := { s.port p with transaction := none, overflowAnew := false }
  if t.judged && (s.port p).enabled && s.resetN then
    let cleared := { (s.port p).clearShown t bits.length with transaction := none, overflowAnew := false }
    match judge bits with
    | .nothing => s.setPort p x
    | .poll => s.setPort p cleared
    | .malformed => s.setPort p { cleared with flags := { cleared.flags with frameError := true } }
    | .frame number params => (s.setPort p cleared).takeFrame p number params
  else s.setPort p x

/-- CS_N_RISE: PI clears the flags the copy showed and judges the bits received (R176, R177, R179). -/
def execCsNRise (p : Port) (bits : List Bool) (s : State) : Host.Outcome State Fault Refusal :=
  match (s.port p).transaction with
  | none => .next s
  | some t => .next (State.settle s (s.closeTransaction p t bits))

/-- A strobe that is taken: an EMPTY slot captures LT and posts CAPTURED, a HELD one notes the overrun (R12, R13). -/
def State.takeStrobe (s : State) (o : Owner) : State :=
  let c := s.tb.captures.get o
  if c.present then { s with tb := { s.tb with captures := s.tb.captures.set o { c with overrun := true } } }
  else
    let s1 := { s with tb := { s.tb with captures := s.tb.captures.set o ⟨true, s.tb.lt, c.overrun⟩ } }
    s1.post o .captured 0 .none 0 0

/-- STROBE: taken with the port enabled, SC AWAKE and RESET_N high, and ignored otherwise (R12, R14). -/
def execStrobe (o : Owner) (s : State) : Host.Outcome State Fault Refusal :=
  if (s.port o.port).enabled && s.sc.state == .awake && s.resetN then .next (s.takeStrobe o) else .next s

end Sys2Proof.Machine
end

