-- ==== Sys2Proof/Machine/Dispatch.lean ====
section
/-!
DEFINITION. One arm per row of spec/opcode_table.json: the meaning of each command.
-/

namespace Sys2Proof.Machine

/-- What a command does to everything but the queue of waiting commands. -/
def exec (i : Instr) (s : State) : Host.Outcome State Fault Refusal :=
  match i with
  | .powerOnReset => Sys2Proof.Machine.execPowerOnReset s
  | .chipReset => Sys2Proof.Machine.execChipReset s
  | .resetNRelease => Sys2Proof.Machine.execResetNRelease s
  | .csNFall p => Sys2Proof.Machine.execCsNFall p s
  | .csNRise p bits => Sys2Proof.Machine.execCsNRise p bits s
  | .strobe o => Sys2Proof.Machine.execStrobe o s
  | .readTime p => Sys2Proof.Machine.execReadTime p s
  | .releaseCapture p => Sys2Proof.Machine.execReleaseCapture p s
  | .addCell p channel code => Sys2Proof.Machine.execAddCell p channel code s
  | .removeCell p index => Sys2Proof.Machine.execRemoveCell p index s
  | .readCell p index => Sys2Proof.Machine.execReadCell p index s
  | .setServing p index => Sys2Proof.Machine.execSetServing p index s
  | .clearServing p => Sys2Proof.Machine.execClearServing p s
  | .timeCell p a => Sys2Proof.Machine.execTimeCell p a s
  | .measureReport p pairs => Sys2Proof.Machine.execMeasureReport p pairs s
  | .setTrigger p hysteresis trigger => Sys2Proof.Machine.execSetTrigger p hysteresis trigger s
  | .reserve p a => Sys2Proof.Machine.execReserve p a s
  | .amend p a => Sys2Proof.Machine.execAmend p a s
  | .cancel p handle => Sys2Proof.Machine.execCancel p handle s
  | .readReservation p handle => Sys2Proof.Machine.execReadReservation p handle s
  | .setPolicy p t1 t2 t3 guard => Sys2Proof.Machine.execSetPolicy p t1 t2 t3 guard s
  | .readPolicy p => Sys2Proof.Machine.execReadPolicy p s
  | .readTimeline p position => Sys2Proof.Machine.execReadTimeline p position s
  | .setProfile p index band channel gain antenna => Sys2Proof.Machine.execSetProfile p index band channel gain antenna s
  | .endWindow p handle => Sys2Proof.Machine.execEndWindow p handle s
  | .callStart p a => Sys2Proof.Machine.execCallStart p a s
  | .callEnd p => Sys2Proof.Machine.execCallEnd p s
  | .readCall p which => Sys2Proof.Machine.execReadCall p which s
  | .exchangeSubmit p a => Sys2Proof.Machine.execExchangeSubmit p a s
  | .exchangeCancel p index => Sys2Proof.Machine.execExchangeCancel p index s
  | .readExchange p index => Sys2Proof.Machine.execReadExchange p index s
  | .handover p target time => Sys2Proof.Machine.execHandover p target time s
  | .handoverCancel p => Sys2Proof.Machine.execHandoverCancel p s
  | .handoverRevert p time => Sys2Proof.Machine.execHandoverRevert p time s
  | .readHandover p which => Sys2Proof.Machine.execReadHandover p which s
  | .vote p value => Sys2Proof.Machine.execVote p value s
  | .setSleep p a => Sys2Proof.Machine.execSetSleep p a s
  | .readSleep p => Sys2Proof.Machine.execReadSleep p s
  | .calibrate p => Sys2Proof.Machine.execCalibrate p s
  | .fetchEvents p => Sys2Proof.Machine.execFetchEvents p s
  | .enablePort p which => Sys2Proof.Machine.execEnablePort p which s
  | .disablePort p which => Sys2Proof.Machine.execDisablePort p which s
  | .resetPort p => Sys2Proof.Machine.execResetPort p s
  | .resetChip p => Sys2Proof.Machine.execResetChip p s
  | .anchorExpiry index => Sys2Proof.Machine.execAnchorExpiry index s
  | .handoverSwitch o => Sys2Proof.Machine.execHandoverSwitch o s
  | .revertSwitch o => Sys2Proof.Machine.execRevertSwitch o s
  | .revertClose o => Sys2Proof.Machine.execRevertClose o s
  | .windowSoon handle => Sys2Proof.Machine.execWindowSoon handle s
  | .loadBegin => Sys2Proof.Machine.execLoadBegin s
  | .loadComplete => Sys2Proof.Machine.execLoadComplete s
  | .activation => Sys2Proof.Machine.execActivation s
  | .partEnd => Sys2Proof.Machine.execPartEnd s
  | .cutTime => Sys2Proof.Machine.execCutTime s
  | .sleepEntry => Sys2Proof.Machine.execSleepEntry s
  | .entryEdge => Sys2Proof.Machine.execEntryEdge s
  | .oscillatorWarmUp => Sys2Proof.Machine.execOscillatorWarmUp s
  | .timerWake => Sys2Proof.Machine.execTimerWake s
  | .commandWake => Sys2Proof.Machine.execCommandWake s
  | .gateOpen => Sys2Proof.Machine.execGateOpen s
  | .gateClose => Sys2Proof.Machine.execGateClose s
  | .refInTick => Sys2Proof.Machine.execRefInTick s
  | .slkInEdge => Sys2Proof.Machine.execSlkInEdge s

end Sys2Proof.Machine
end

