-- ==== Sys2Proof/Safety.lean ====
section
/-!
DEFINITION. What claims are stated in: which parts of the state two states share, and what a sound state is. Each sound
condition is a sentence of the manual about every state of the part.
-/

namespace Sys2Proof.Machine

/-! ### Frames -/

/-- The parts of the state, one per block of section 1.2 of the scope, each port of PI on its own. -/
inductive Block where
  | tb
  | ct
  | rt
  | arb
  | wc
  | su
  | hu
  | sc
  | port (p : Port)
  | resetN
  | free
  | pending
  deriving DecidableEq, Repr

/-- `t` is `s` but for the listed parts. -/
def State.sameExcept (s t : State) (parts : List Block) : Prop :=
  (Block.tb ∉ parts → t.tb = s.tb) ∧ (Block.ct ∉ parts → t.ct = s.ct) ∧ (Block.rt ∉ parts → t.rt = s.rt)
    ∧ (Block.arb ∉ parts → t.arb = s.arb) ∧ (Block.wc ∉ parts → t.wc = s.wc) ∧ (Block.su ∉ parts → t.su = s.su)
    ∧ (Block.hu ∉ parts → t.hu = s.hu) ∧ (Block.sc ∉ parts → t.sc = s.sc)
    ∧ (∀ p, Block.port p ∉ parts → t.port p = s.port p) ∧ (Block.resetN ∉ parts → t.resetN = s.resetN)
    ∧ (Block.free ∉ parts → t.free = s.free) ∧ (Block.pending ∉ parts → t.pending = s.pending)

/-- A port as a completed command leaves it: DONE with a status and results, its buffer free (R180). -/
def PortState.answered (x : PortState) (number : Nat) (st : Status) (results : List Byte) : PortState :=
  { x with slot := .done number st results, buffer := none }

/-- Command `i` executes at `s`: it is ready on port `p`, whose slot is PENDING with number `n` (R17, R179, R180). -/
def State.executes (s : State) (p : Port) (n : Nat) (i : Instr) : Prop :=
  s.ready p i = true ∧ (s.port p).slot = .pending n

/-- What the end of a step may do to SC beside its own effect: a span-short mark cleared (R156), and an entry abandoned
whose condition no longer holds (R157). -/
def State.sleepSettled (s t : State) : Prop :=
  t.sc = { s.sc with spanShort := t.sc.spanShort, state := t.sc.state }
    ∧ (t.sc.spanShort = true → s.sc.spanShort = true)
    ∧ (t.sc.state = s.sc.state ∨ (s.sc.state = .entering ∧ t.sc.state = .awake ∧ t.entryCondition = false))

/-- What a step may do to WC and SC beside its own effect: another next window, a load that no longer serves a window of
the timeline (R86), and SC settled. Profiles, lines and the word in flight stay. -/
def State.replanned (s t : State) : Prop :=
  t.wc = { s.wc with next := t.wc.next, load := t.wc.load }
    ∧ t.wc.load.map (fun l => { l with serves := none }) = s.wc.load.map (fun l => { l with serves := none })
    ∧ s.sleepSettled t

/-- `t` is `s` but for the listed parts and for replanning. -/
def State.replannedExcept (s t : State) (parts : List Block) : Prop :=
  s.sameExcept t (.wc :: .sc :: parts) ∧ s.replanned t

/-- No window of the timeline conflicts with [start, start + len) of an owner and profile (R63, R71). -/
def State.clearAt (s : State) (o : Owner) (profile : Nat) (start : LocalTime) (len : Nat) : Prop :=
  ∀ h y, s.record? h = some y → y.occ.state.inTimeline = true → s.conflicts o profile start len y = false

/-- Every window of the timeline ends, with its guard, fewer than 2^44 ticks after it starts: far less than half the
circle of LT, so that "before" orders the starts that a search passes. -/
def State.windowsBounded (s : State) : Prop :=
  ∀ h y, s.record? h = some y → y.occ.state.inTimeline = true →
    ticksTo y.occ.placed y.occ.endLt + s.arb.guard < 17592186044416

/-- `t` is `s` after the chip-reset effects of every block but RESET_N: time and ratio, residue and uncalibrated flag as
given, captures emptied, every table, plan, window, session and sleep parameter at its reset value, both SUB ports
disabled, POLICY's slot EMPTY with the vote HOLD (R2, R16, R37, R60, R85, R100, R118, R134, R153, R168, R175, R189, R190).
CAL_ABORTED stands first in POLICY's queue where a calibration ran (R175). Transactions go on (notes/assumptions/30). -/
def State.chipResetTo (s t : State) (lt : LocalTime) (residue : Nat) (last : SleepRecord) : Prop :=
  t.tb.lt = lt ∧ t.tb.ratio = s.tb.ratio ∧ t.tb.uncalibrated = s.tb.uncalibrated ∧ t.tb.residue = residue
    ∧ t.tb.run = none
    ∧ (∀ o, (t.tb.captures.get o).present = false ∧ (t.tb.captures.get o).overrun = false)
    ∧ t.tb.lastCal = (match s.tb.run with
        | none => s.tb.lastCal
        | some run => ⟨.aborted, run.exponent, 0, 0, 0, lt, run.auto⟩)
    ∧ t.ct = State.reset.ct ∧ t.rt = State.reset.rt ∧ t.arb = State.reset.arb ∧ t.wc = State.reset.wc
    ∧ t.su = State.reset.su ∧ t.hu = State.reset.hu ∧ t.sc = { State.reset.sc with last := last }
    ∧ (∀ o : Owner, t.port o.port =
        { State.reset.port o.port with transaction := (s.port o.port).transaction })
    ∧ t.port .policy =
        { State.reset.port .policy with
          transaction := (s.port .policy).transaction
          queue := match s.tb.run with
            | none => []
            | some run => [⟨.calAborted, run.exponent, .none, calFlags false run.auto, 0, lt⟩] }
    ∧ t.free = s.free ∧ t.pending = s.pending

/-- `t` is `s` after the port reset of an owner in every block but PI: its capture, cells, trigger settings, records,
call, exchanges, handover, revert window and profiles are gone or at their reset values, and the other owner's stay
(R16, R37, R60, R85, R92, R100, R118, R134, R153). `ended` says whether the owner's window was ACTIVE: then the lines are
low and last end is the present LT. -/
def State.portResetTo (s t : State) (o : Owner) (ended : Bool) : Prop :=
  t.tb = { s.tb with captures := t.tb.captures } ∧ t.tb.captures.get o.other = s.tb.captures.get o.other
    ∧ (t.tb.captures.get o).present = false ∧ (t.tb.captures.get o).overrun = false
    ∧ (∀ i, t.cell? i = (s.cell? i).filter (fun c => !(c.owner == o)))
    ∧ t.ct.triggers.get o = ⟨6, 4⟩ ∧ t.ct.triggers.get o.other = s.ct.triggers.get o.other
    ∧ (∀ h, t.record? h = (s.record? h).filter (fun r => !(r.owner == o)))
    ∧ t.call? o = none ∧ t.call? o.other = s.call? o.other
    ∧ (∀ i, t.exchange? i = (s.exchange? i).filter (fun x => !(x.owner == o)))
    ∧ t.handover? o = none ∧ t.handover? o.other = s.handover? o.other
    ∧ t.revert? o = none ∧ t.revert? o.other = s.revert? o.other
    ∧ t.arb = s.arb ∧ t.resetN = s.resetN ∧ t.free = s.free ∧ t.pending = s.pending
    ∧ t.wc.profiles.get o = Vector.replicate 16 ⟨0, 0, 0, 0⟩
    ∧ t.wc.profiles.get o.other = s.wc.profiles.get o.other
    ∧ t.wc.lastLoaded = s.wc.lastLoaded.filter (fun x => !(x.1 == o))
    ∧ (∀ l, s.wc.load = some l → ∃ m, t.wc.load = some m ∧ m.word = l.word ∧ m.start = l.start
        ∧ m.orphaned = (l.orphaned || l.owner == o))
    ∧ t.wc.sequence = s.wc.sequence ∧ t.wc.pendingWidening = s.wc.pendingWidening
    ∧ (ended = false → t.wc.rxEn = s.wc.rxEn ∧ t.wc.txEn = s.wc.txEn ∧ t.wc.lastEnd = s.wc.lastEnd)
    ∧ (ended = true → t.wc.rxEn = false ∧ t.wc.txEn = false ∧ t.wc.lastEnd = some s.tb.lt)
    ∧ t.sc = { s.sc with spanShort := t.sc.spanShort } ∧ (t.sc.spanShort = true → s.sc.spanShort = true)

/-! ### Sound states -/

/-- R169: the ratio and the residue lie in their ranges. -/
def State.ratioSound (s : State) : Prop :=
  47760000 ≤ s.tb.ratio ∧ s.tb.ratio ≤ 48240000 ∧ s.tb.residue < 65536

/-- R183: a queue holds at most 16 records and the overflow count stops at 255. -/
def State.queuesSound (s : State) : Prop :=
  ∀ p, (s.port p).queue.length ≤ 16 ∧ (s.port p).overflowCount ≤ 255

/-- The window of some record is ACTIVE, with the direction TX or RX. -/
def State.airs (s : State) (tx : Bool) : Prop := ∃ h r, s.record? h = some r ∧ r.occ.state = .active ∧ r.kind.isTx = tx

/-- R93: at most one window is ACTIVE; each window line is high exactly while an ACTIVE window has its direction, so
that the two are never high together. -/
def State.airSound (s : State) : Prop :=
  (∀ h k r q, s.record? h = some r → s.record? k = some q → r.occ.state = .active → q.occ.state = .active → h = k)
    ∧ (s.wc.rxEn = true ↔ s.airs false) ∧ (s.wc.txEn = true ↔ s.airs true)
    ∧ ¬(s.wc.rxEn = true ∧ s.wc.txEn = true)

/-- R65: the thresholds ascend to at most 16, and the guard is at most 12,000. -/
def State.policySound (s : State) : Prop :=
  s.arb.t1 ≤ s.arb.t2 ∧ s.arb.t2 ≤ s.arb.t3 ∧ s.arb.t3 ≤ 16 ∧ s.arb.guard ≤ 12000

/-- R166: each sleep parameter lies in its range. -/
def State.sleepSound (s : State) : Prop :=
  s.sc.params.lead ≤ 240000 ∧ (1 ≤ s.sc.params.warmUp ∧ s.sc.params.warmUp ≤ 255)
    ∧ (8 ≤ s.sc.params.spanMin ∧ s.sc.params.spanMin ≤ 65535)
    ∧ (256 ≤ s.sc.params.spanMax ∧ s.sc.params.spanMax ≤ 16777215)
    ∧ (1 ≤ s.sc.params.uncertainty ∧ s.sc.params.uncertainty ≤ 500)
    ∧ (10 ≤ s.sc.params.exponent ∧ s.sc.params.exponent ≤ 16) ∧ s.sc.params.shift ≤ 3
    ∧ s.sc.params.autoInterval ≤ 255

/-- R186: a disabled port is out of the part altogether. -/
def PortState.outSound (x : PortState) : Prop :=
  x.enabled = false → x.slot = .disabled ∧ x.queue = [] ∧ x.overflowCount = 0 ∧ x.vote = none ∧ x.buffer = none

/-- R178, R184, R186: POLICY is always enabled, and a disabled SUB port is DISABLED, empty and without a vote. -/
def State.portsSound (s : State) : Prop :=
  (s.port .policy).enabled = true ∧ ∀ p, (s.port p).outSound

/-- R154: REF_EN is low exactly in ASLEEP. -/
def State.oscillatorSound (s : State) : Prop := s.sc.refEn = false ↔ s.sc.state = .asleep

end Sys2Proof.Machine
end

