-- ==== Sys2Proof/Certificates/Slice0/Obligations.lean ====
section
/-!
DEFINITION. The statements for the provers, in the order of the spec's chapters after those about PI and the resets. A
statement's docstring names the rules it formalises; a clause that is the model's own choice names its log entry.
-/

open Sys2Proof Sys2Proof.Machine

/-! ### Ports and the queue of commands -/

/-- O1. One step runs the command at the front of the queue on the state with the queue's rest (the block's form,
notes/assumptions/1, 3). -/
def Obligations.StepRunsTheFrontCommand : Prop :=
  ∀ (s : State) (c : Instr) (rest : List Instr), s.pending = c :: rest → step s = exec c { s with pending := rest }

/-- O2. The frame of every well-formed command passes PI's checks and is read back as that command, with every operand
at every value its field admits (R179, the command index). -/
def Obligations.FrameOfCommandReadsBack : Prop :=
  ∀ (i : Instr) (p : Port) (n : Nat), i.wellFormed = true → i.command? = some (p, n) →
    parseFrame p n (paramsOf i) = .command i

/-- O3. A command's frame received on an enabled port that is not PENDING is taken: the slot becomes PENDING, shown flags
are cleared, and with the part AWAKE or ENTERING an entry is abandoned and the command is ready; one that finds the part
ASLEEP stays in the buffer, drives REF_EN high and sets the wake count to the smaller of c + Ws and S, and one that finds it
WAKING stays in the buffer too, with the wake as it was set (R176, R177, R179, R157, R163). That an overflow flag set anew is
kept when the flags are cleared is notes/assumptions/13. -/
def Obligations.CommandFrameIsTaken : Prop :=
  ∀ (s : State) (p : Port) (i : Instr) (n : Nat) (tx : Transaction), i.wellFormed = true → i.command? = some (p, n) →
    (s.port p).transaction = some tx → tx.judged = true → (s.port p).enabled = true → s.resetN = true →
    (∀ m, (s.port p).slot ≠ .pending m) →
    let bits := bitsOfBytes (frameOf i)
    let taken := fun (t : State) => t.port p = { (s.port p).clearShown tx bits.length with
          slot := .pending n, buffer := some ⟨n, paramsOf i, s.sc.state⟩, transaction := none, overflowAnew := false }
      ∧ t.wc = { s.wc with next := t.wc.next, load := t.wc.load } ∧ s.sameExcept t [.wc, .sc, .port p]
    (s.sc.state = .awake ∨ s.sc.state = .entering →
      ∃ t, exec (.csNRise p bits) s = .next t ∧ taken t ∧ t.executes p n i
        ∧ t.sc = { s.sc with state := .awake, spanShort := false })
    ∧ (∀ hand, s.sc.state = .asleep → s.sc.hand = some hand →
        ∃ t, exec (.csNRise p bits) s = .next t ∧ taken t
          ∧ t.sc = { s.sc with
              state := .waking, refEn := true, spanShort := false
              early := some (min (s.sc.counter + hand.warmUp) hand.span, p) })
    ∧ (s.sc.state = .waking →
        ∃ t, exec (.csNRise p bits) s = .next t ∧ taken t ∧ t.sc = { s.sc with spanShort := false })

/-- O4. At the fall of CS_N the response frame and the flags are copied as they stand; nothing is copied, and nothing
will be judged, while RESET_N is low (R176, R178, R189). The bytes copied are those of the table of section 10.2. SDO
shifts out the copy, then zeros; zeros throughout while RESET_N is low, also of a copy taken before; and is at high
impedance while CS_N is high. That the bits left of a copy follow once RESET_N is high again is notes/assumptions/30. -/
def Obligations.CsNFallCopiesTheResponse : Prop :=
  (∀ (s : State) (p : Port) (i : Nat),
     ((s.port p).transaction = none → s.sdo p i = none)
     ∧ ∀ tx, (s.port p).transaction = some tx →
         (s.resetN = false → s.sdo p i = some false)
         ∧ (s.resetN = true → s.sdo p i = some (((bitsOfBytes tx.copy)[i]?).getD false)))
  ∧ ∀ (s : State) (p : Port), (s.port p).transaction = none →
    ∃ t tx, exec (.csNFall p) s = .next t ∧ s.sameExcept t [.port p]
      ∧ t.port p = { s.port p with transaction := some tx, overflowAnew := false }
      ∧ tx.shown = (s.port p).flags ∧ tx.judged = ((s.port p).enabled && s.resetN)
      ∧ (s.resetN = false → tx.copy = [] ∧ tx.copyDone = false)
      ∧ (s.resetN = true →
          let flags := portFlagsByte (s.port p).flags (!(s.port p).queue.isEmpty)
          match (s.port p).slot with
          | .empty => tx.copy = [0, 0, 0, flags, 0] ∧ tx.copyDone = false
          | .pending n => tx.copy = [1, BitVec.ofNat 8 n, 0, flags, 0] ∧ tx.copyDone = false
          | .done n st rs =>
              tx.copy = [2, BitVec.ofNat 8 n, BitVec.ofNat 8 st.code, flags, BitVec.ofNat 8 rs.length] ++ rs
                ∧ tx.copyDone = true
          | .disabled => tx.copy = [3, 0, 0, 0, 0] ∧ tx.copyDone = false)

/-- O5. At the rise of CS_N on a port that is to be judged: no bits and a poll, whose sixteen bits shift out too little of
a copy to clear a flag, change nothing of the port; bits that no header explains set the frame-error flag; a command
frame that meets a PENDING slot sets the collision flag; and where four bytes or more of a DONE copy have gone out, the
flags it showed are cleared first (R176, R177, R179, R181). Only the flags and the transaction of the port change. The
flag set anew is notes/assumptions/13; that zero bytes beyond a poll are malformed, as the table of R177 has it against
the polls of section 10.5.1, is notes/assumptions/46. -/
def Obligations.CsNRiseJudgesEveryOtherFrame : Prop :=
  ∀ (s : State) (p : Port) (tx : Transaction) (bits : List Bool), (s.port p).transaction = some tx →
    tx.judged = true → (s.port p).enabled = true → s.resetN = true →
    let x := { s.port p with transaction := none, overflowAnew := false }
    let kept : PortFlags :=
      if tx.copyDone = true ∧ 32 ≤ bits.length then
        ⟨x.flags.collision && !tx.shown.collision, x.flags.frameError && !tx.shown.frameError,
          x.flags.overflow && (!tx.shown.overflow || (s.port p).overflowAnew)⟩
      else x.flags
    let ends := fun (y : PortState) => ∃ t, exec (.csNRise p bits) s = .next t ∧ t.port p = y
      ∧ s.replannedExcept t [.port p]
    (bits = [] → ends x)
      ∧ (bits = bitsOfBytes [0, 0] → ends x)
      ∧ (bits ≠ [] → bits.length % 8 ≠ 0 ∨ bits.length < 16 →
          ends { x with flags := { kept with frameError := true } })
      ∧ (∀ number len : Byte, ∀ params : List Byte, bits = bitsOfBytes (number :: len :: params) →
          96 < len.toNat ∨ params.length ≠ len.toNat ∨ (number = 0 ∧ len ≠ 0) →
          ends { x with flags := { kept with frameError := true } })
      ∧ (∀ number len : Byte, ∀ params : List Byte, ∀ m : Nat, bits = bitsOfBytes (number :: len :: params) →
          number ≠ 0 → params.length = len.toNat → len.toNat ≤ 96 → (s.port p).slot = .pending m →
          ends { x with flags := { kept with collision := true } })

/-- O6. PI refuses a frame it takes in the order BAD_COMMAND, WRONG_PORT, BAD_PARAM, at once, with no results, and
changes nothing else but the sleep entry that the frame abandons (R179, R156, R157). That an overflow flag set anew is kept
when the flags are cleared is notes/assumptions/13. -/
def Obligations.FramesArePassedOrRefusedInOrder : Prop :=
  ∀ (s : State) (p : Port) (tx : Transaction) (number len : Byte) (params : List Byte) (st : Status),
    (s.port p).transaction = some tx → tx.judged = true → (s.port p).enabled = true →
    s.resetN = true → (∀ m, (s.port p).slot ≠ .pending m) → s.sc.state = .awake ∨ s.sc.state = .entering →
    number ≠ 0 → params.length = len.toNat → len.toNat ≤ 96 →
    (st = .badCommand ∧ 38 < number.toNat)
      ∨ (st = .wrongPort ∧ number.toNat ≤ 38 ∧ listedOn number.toNat p = false)
      ∨ (st = .badParam ∧ number.toNat ≤ 38 ∧ listedOn number.toNat p = true
          ∧ lengthAccepted number.toNat p params = false) →
    ∃ t, exec (.csNRise p (bitsOfBytes (number :: len :: params))) s = .next t
      ∧ t.port p = { (s.port p).clearShown tx (bitsOfBytes (number :: len :: params)).length with
          slot := .done number.toNat st [], buffer := none, transaction := none, overflowAnew := false }
      ∧ t.sc = { s.sc with state := .awake, spanShort := false }
      ∧ t.wc = { s.wc with next := t.wc.next, load := t.wc.load } ∧ s.sameExcept t [.wc, .sc, .port p]

/-- O7. A command that its block refuses changes no state of any block and carries no results: whatever the command,
a status other than OK leaves the state but for the port's DONE slot and its buffer (R180). -/
def Obligations.RefusedCommandChangesNothing : Prop :=
  ∀ (s t : State) (p : Port) (i : Instr) (n : Nat) (st : Status) (results : List Byte), s.executes p n i →
    exec i s = .next t → (t.port p).slot = .done n st results → st ≠ .ok →
    results = [] ∧ t = s.setPort p { s.port p with slot := .done n st [], buffer := none }

/-! ### Resets and port control -/

/-- O8. Power-on reset gives the reset state, whatever the state before; the model's own queue and counter of free values
stay (notes/assumptions/35). The values are those of the reset tables: LT 0, the ratio 48,000,000 uncalibrated, empty
tables, thresholds 2, 6, 11 and guard 2,400, tokens with A, H = 6 and N = 4, the sleep defaults, SUB ports disabled and
POLICY's slot EMPTY with the vote HOLD (R2, R37, R60, R85, R100, R118, R134, R153, R168, R175, R190). The model's
choices among them, for which no table gives a value: RESET_N high and no transaction (notes/assumptions/5); the sleep
counter, the LT of the last wake, the load state of the ACTIVE window, the empty buffers (notes/assumptions/37). -/
def Obligations.PowerOnResetGivesResetValues : Prop :=
  ∀ s : State, ∃ t, exec .powerOnReset s = .next t ∧ t = { State.reset with free := s.free, pending := s.pending }
    ∧ t.tb.lt = 0 ∧ t.tb.ratio = 48000000 ∧ t.tb.uncalibrated = true ∧ t.tb.residue = 0 ∧ t.tb.run = none
    ∧ (∀ i, t.cell? i = none) ∧ (∀ h, t.record? h = none) ∧ (∀ i, t.exchange? i = none)
    ∧ (∀ o, t.call? o = none ∧ t.handover? o = none ∧ t.revert? o = none ∧ t.ct.triggers.get o = ⟨6, 4⟩
        ∧ (t.tb.captures.get o).present = false ∧ t.port o.port = ⟨false, .disabled, none, ⟨false, false, false⟩, false,
          [], 0, none, none⟩)
    ∧ t.arb.t1 = 2 ∧ t.arb.t2 = 6 ∧ t.arb.t3 = 11 ∧ t.arb.guard = 2400 ∧ (∀ c, t.token c = .a)
    ∧ t.wc.lastLoaded = none ∧ t.wc.sequence = 0 ∧ t.wc.rxEn = false ∧ t.wc.txEn = false ∧ t.wc.pendingWidening = 0
    ∧ t.sc.state = .awake ∧ t.sc.refEn = true ∧ t.sc.params = ⟨24000, 66, 64, 983040, 50, 12, 2, 16⟩ ∧ t.sc.wakes = 0
    ∧ (t.port .policy).enabled = true ∧ (t.port .policy).slot = .empty ∧ (t.port .policy).vote = some .hold
    ∧ (t.port .policy).queue = []

/-- O9. A chip reset, by RESET_N falling or by RESET CHIP, keeps LT, ratio, residue and uncalibrated flag and returns
everything else; one that finds the part in a sleep first advances LT by the slow count reached, and writes the last
sleep record (R2, R165, R167, R175, R189). A rise of RESET_N changes the pin alone. The model's choices: LT_e in that
record, and in an aborted calibration's the n, LT, cause and zeros (notes/assumptions/24); the transactions kept
(notes/assumptions/30); the values of WC and SC that no table gives (notes/assumptions/37). -/
def Obligations.ChipResetKeepsTimeAndRatio : Prop :=
  (∀ s : State, s.resetN = true → s.sc.state = .awake ∨ s.sc.state = .entering →
    ∃ t, exec .chipReset s = .next t ∧ t.resetN = false ∧ s.chipResetTo t s.tb.lt s.tb.residue s.sc.last)
  ∧ (∀ (s : State) (hand : SleepHand), s.resetN = true → s.sc.state = .asleep ∨ s.sc.state = .waking →
      s.sc.hand = some hand →
      ∃ t last, exec .chipReset s = .next t ∧ t.resetN = false
        ∧ s.chipResetTo t (plus hand.entryLt ((s.sc.counter * hand.ratio + s.tb.residue) / 65536))
          ((s.sc.counter * hand.ratio + s.tb.residue) % 65536) last
        ∧ last.entryLt = hand.entryLt ∧ last.wakeCount = s.sc.counter ∧ last.widening = 0 ∧ last.reason = .none)
  ∧ (∀ (s : State) (n : Nat), s.executes .policy n (.resetChip .policy) →
      ∃ t, exec (.resetChip .policy) s = .next t ∧ t.resetN = s.resetN
        ∧ s.chipResetTo t s.tb.lt s.tb.residue s.sc.last)
  ∧ (∀ s : State, exec .resetNRelease s = .next { s with resetN := true })

/-- O10. RESET PORT and DISABLE PORT carry out the port reset of an owner in every block and leave the other owner
everything. RESET PORT empties its port, gives it the vote HOLD and posts PORT_RESET to POLICY; DISABLE PORT leaves the
port DISABLED and without a vote, posts nothing, and answers that it was enabled; on a port already disabled it changes
nothing and answers so (R186, R187, R188 and the reset tables). That a transaction goes on is notes/assumptions/30. An ACTIVE
window of the owner is ended at once; the statement takes that case with no other window in the timeline. -/
def Obligations.PortResetsReturnTheOwner : Prop :=
  ∀ (s : State) (o : Owner) (n : Nat), (∀ h r, s.active? = some (h, r) → r.owner = o → s.timeline = [(h, r)]) →
    let ended := (s.active?.filter (fun x => x.2.owner == o)).isSome
    (s.executes o.port n (.resetPort o.port) →
      ∃ t, exec (.resetPort o.port) s = .next t ∧ s.portResetTo t o ended
        ∧ t.port o.port = { s.port o.port with
            slot := .done n .ok [], buffer := none, flags := ⟨false, false, false⟩, overflowAnew := false, queue := []
            overflowCount := 0, vote := some .hold }
        ∧ t.port .policy = (s.port .policy).push ⟨.portReset, o.code, .none, 0, 0, s.tb.lt⟩
        ∧ t.port o.other.port = s.port o.other.port)
    ∧ (s.executes .policy n (.disablePort .policy o.code) → (s.port o.port).enabled = false →
        ∃ t, exec (.disablePort .policy o.code) s = .next t
          ∧ t.port .policy = (s.port .policy).answered n .ok [0] ∧ s.replannedExcept t [.port .policy]
          ∧ (s.refreshWindows = s → t.wc = s.wc))
    ∧ (s.executes .policy n (.disablePort .policy o.code) → (s.port o.port).enabled = true →
        ∃ t, exec (.disablePort .policy o.code) s = .next t ∧ s.portResetTo t o ended
          ∧ t.port o.port = ⟨false, .disabled, none, ⟨false, false, false⟩, false, [], 0, none,
              (s.port o.port).transaction⟩
          ∧ t.port .policy = (s.port .policy).answered n .ok [1]
          ∧ t.port o.other.port = s.port o.other.port)

/-- O11. ENABLE PORT enables a disabled port with an EMPTY slot, clear flags, an empty queue and the vote HOLD, and
answers 0; on an enabled port it changes nothing and answers 1; any other value than 0 and 1 is refused with BAD_PARAM
(R186). -/
def Obligations.EnablePortEnablesOnce : Prop :=
  ∀ (s : State) (n which : Nat), s.executes .policy n (.enablePort .policy which) →
    ∃ t, exec (.enablePort .policy which) s = .next t
      ∧ match ownerOfByte which with
        | none => t = s.setPort .policy ((s.port .policy).answered n .badParam [])
        | some o =>
            if (s.port o.port).enabled then t = s.setPort .policy ((s.port .policy).answered n .ok [1])
            else t = (s.setPort o.port ⟨true, .empty, none, ⟨false, false, false⟩, false, [], 0, some .hold,
              (s.port o.port).transaction⟩).setPort .policy ((s.port .policy).answered n .ok [0])

/-- O12. FETCH EVENTS removes up to six records from the head of the port's queue, oldest first, answers how many, how
many stay, the overflow count and the records of 12 bytes each, and sets the count to 0 (R185, R182). -/
def Obligations.FetchEventsTakesTheOldest : Prop :=
  ∀ (s : State) (p : Port) (n : Nat), s.executes p n (.fetchEvents p) →
    ∃ t taken rest, exec (.fetchEvents p) s = .next t ∧ (s.port p).queue = taken ++ rest
      ∧ taken.length = min 6 (s.port p).queue.length
      ∧ t.port p = { s.port p with
          queue := rest, overflowCount := 0, buffer := none
          slot := .done n .ok
            (bytesOfNat 1 taken.length ++ bytesOfNat 1 rest.length ++ bytesOfNat 1 (s.port p).overflowCount
              ++ taken.flatMap Event.bytes) }
      ∧ s.sameExcept t [.port p]

/-! ### Timebase -/

/-- O13. LT counts one on every REF_IN tick in AWAKE and ENTERING, modulo 2^48, and with it an open gate; in ASLEEP and
WAKING it holds (R1, R172). A slow edge that opens or closes no gate and starts or ends no part of a sleep counts in an
open gate and in the sleep counter, and changes nothing else (R160, R172); the edge that brings a sleep's count to S − Ws
may count so too (R163; notes/assumptions/47). That SLK_IN_EDGE leaves alone what the edges with a row of their own do,
in WAITING_EDGE, at the 2^n-th edge, at a wake and in ENTERING, is the model's choice (notes/assumptions/1, 2). -/
def Obligations.ClocksCount : Prop :=
  ∀ s : State,
    (∃ t, exec .refInTick s = .next t ∧ s.sameExcept t [.tb]
      ∧ (s.sc.state = .awake ∨ s.sc.state = .entering →
          t.tb.lt.toNat = (s.tb.lt.toNat + 1) % 281474976710656
            ∧ t.tb = { s.tb with lt := t.tb.lt, run := t.tb.run }
            ∧ t.tb.run = s.tb.run.map (fun run =>
                if run.gate = .counting then { run with count := run.count + 1 } else run))
      ∧ (s.sc.state = .asleep ∨ s.sc.state = .waking → t = s))
    ∧ ∃ t, exec .slkInEdge s = .next t ∧ s.sameExcept t [.tb, .sc]
        ∧ t.tb = { s.tb with run := s.tb.run.map (fun run =>
            if run.gate = .counting ∧ run.edges + 1 ≠ 2 ^ run.exponent then { run with edges := run.edges + 1 }
            else run) }
        ∧ t.sc = { s.sc with counter := t.sc.counter }
        ∧ (∀ hand, s.sc.hand = some hand →
            (s.sc.state = .asleep → s.sc.counter < hand.span - hand.warmUp → t.sc.counter = s.sc.counter + 1)
            ∧ (s.sc.state = .waking → s.sc.early = none → s.sc.counter + 1 ≠ hand.span →
                t.sc.counter = s.sc.counter + 1)
            ∧ (∀ c p, s.sc.state = .waking → s.sc.early = some (c, p) → s.sc.counter + 1 ≠ c →
                t.sc.counter = s.sc.counter + 1))
        ∧ (s.sc.state = .awake ∨ s.sc.state = .entering → t.sc = s.sc)

/-- O14. A strobe taken on an EMPTY slot captures LT and posts CAPTURED with that LT; one taken on a HELD slot sets the
overrun and nothing else; one with the port disabled, SC not AWAKE or RESET_N low is ignored (R12, R13, R14). RELEASE
CAPTURE answers the slot as it stood, an absent LT as zero, and empties it (R15). -/
def Obligations.CaptureSlotFillsOnceAndIsReleased : Prop :=
  (∀ (s : State) (o : Owner),
     ((s.port o.port).enabled = true → s.sc.state = .awake → s.resetN = true →
       ∃ t, exec (.strobe o) s = .next t
         ∧ t.tb = { s.tb with captures := t.tb.captures }
         ∧ t.tb.captures.get o.other = s.tb.captures.get o.other
         ∧ ((s.tb.captures.get o).present = false →
             t.tb.captures.get o = ⟨true, s.tb.lt, (s.tb.captures.get o).overrun⟩
               ∧ t.port o.port = (s.port o.port).push ⟨.captured, 0, .none, 0, 0, s.tb.lt⟩
               ∧ s.sameExcept t [.tb, .port o.port])
         ∧ ((s.tb.captures.get o).present = true →
             t.tb.captures.get o = ⟨true, (s.tb.captures.get o).lt, true⟩ ∧ s.sameExcept t [.tb]))
     ∧ ((s.port o.port).enabled = false ∨ s.sc.state ≠ .awake ∨ s.resetN = false → exec (.strobe o) s = .next s))
  ∧ (∀ (s : State) (o : Owner) (n : Nat), s.executes o.port n (.releaseCapture o.port) →
     let c := s.tb.captures.get o
     ∃ t, exec (.releaseCapture o.port) s = .next t
       ∧ t.tb = { s.tb with captures := t.tb.captures }
       ∧ (t.tb.captures.get o).present = false ∧ (t.tb.captures.get o).overrun = false
       ∧ t.tb.captures.get o.other = s.tb.captures.get o.other
       ∧ t.port o.port = (s.port o.port).answered n .ok
           ([if c.present then 1 else 0] ++ bytesOfNat 6 (if c.present then c.lt.toNat else 0)
             ++ [if c.overrun then 1 else 0])
       ∧ s.sameExcept t [.tb, .port o.port])

/-- O15. The sum of a cell time in range and a length lies in range, and names the instant that many cell ticks later in
the cycle of 294,912,000 (R5). A resolution answers the first of the ten candidates, a cycle apart from the anchor on, that
lies after the reference point (for an earlier TX occurrence, plus its advance), less the entry's advance for TX; with
none it is out of reach, and without an anchor untimed. Each candidate is A + Δ + Δ × d / 10^9, the share rounded once, to
the nearest integer with an exact half away from zero (R6 to R10). -/
def Obligations.CellTimesAddAndResolve : Prop :=
  (∀ (t : CellTime) (n : Nat), t.valid = true →
     (t.add n).valid = true ∧ (t.add n).inCycle = (t.inCycle + n) % 294912000
       ∧ (t.add n).offset = (t.slot * 12000 + t.offset + n) % 12000
       ∧ (t.add n).slot = (t.slot * 12000 + t.offset + n) / 12000 % 12
       ∧ (t.add n).frame = (t.frame + (t.slot * 12000 + t.offset + n) / 12000 / 12) % 2048)
  ∧ ((∀ (c : Cell) (t : CellTime) (ref : LocalTime) (tx : Bool) (earlier : Nat),
     (c.anchor = none → c.resolve t ref tx earlier = .untimed)
     ∧ ∀ a, c.anchor = some a →
         let point := if tx then plus ref earlier else ref
         let delta := fun (j : Nat) => ((t.frame + 2048 - a.frame % 2048) % 2048 + 2048 * j) * 144000 + t.slot * 12000
           + t.offset
         let candidate := fun (j : Nat) => BitVec.ofInt 48
           ((a.lt.toNat : Int) + (delta j : Int) + roundHalfAway ((delta j : Int) * a.drift) 1000000000)
         ((∀ j, j ≤ 9 → before point (candidate j) = false) → c.resolve t ref tx earlier = .outOfReach)
         ∧ ∀ j, j ≤ 9 → before point (candidate j) = true → (∀ i, i < j → before point (candidate i) = false) →
             c.resolve t ref tx earlier =
               if tx then .found (less (candidate j) c.advance) c.advance else .found (candidate j) 0)
   ∧ ∀ num : Int,
       let q := roundHalfAway num 1000000000
       2 * (num - q * 1000000000).natAbs ≤ 1000000000
         ∧ (2 * (num - q * 1000000000).natAbs = 1000000000 → num.natAbs < (q * 1000000000).natAbs))

/-! ### Cells -/

/-- O16. ADD CELL makes the lowest FREE entry a NEIGHBOUR of the owner with the identity given and nothing else, and
answers its index; it is refused in the order BAD_PARAM, DUPLICATE, QUOTA, TABLE_FULL (R19). -/
def Obligations.AddCellTakesTheLowestFreeEntry : Prop :=
  ∀ (s : State) (o : Owner) (n channel code : Nat), s.executes o.port n (.addCell o.port channel code) →
    let c := Instr.addCell o.port channel code
    let refused := fun st => exec c s = .next (s.setPort o.port ((s.port o.port).answered n st []))
    let own := s.cellList.filter (fun x => x.2.owner == o)
    let taken := ∃ i y, s.cell? i = some y ∧ y.owner = o ∧ y.channel = channel ∧ y.code = code
    (1023 < code → refused .badParam)
    ∧ (code ≤ 1023 → taken → refused .duplicate)
    ∧ (code ≤ 1023 → ¬taken → 16 ≤ own.length → refused .quota)
    ∧ (code ≤ 1023 → ¬taken → own.length < 16 → (∀ i, i < 24 → s.cell? i ≠ none) → refused .tableFull)
    ∧ (∀ i, code ≤ 1023 → ¬taken → own.length < 16 → i < 24 → s.cell? i = none → (∀ j, j < i → s.cell? j ≠ none) →
        ∃ t, exec c s = .next t
          ∧ t.cell? i = some ⟨o, .neighbour, channel, code, none, 0, none, 0, false, 0⟩
          ∧ (∀ j, j ≠ i → t.cell? j = s.cell? j) ∧ t.ct.triggers = s.ct.triggers
          ∧ t.port o.port = (s.port o.port).answered n .ok (bytesOfNat 1 i) ∧ s.sameExcept t [.ct, .port o.port])

/-- O17. REMOVE CELL checks in order: BAD_PARAM above 23, UNKNOWN for a FREE entry, NOT_OWNER, and IN_USE unless the
entry is NEIGHBOUR with reference count 0 and not the target of a pending handover; on acceptance the entry is FREE, no
event is posted and nothing else changes. From POLICY PI refuses it with WRONG_PORT (R20). -/
def Obligations.RemoveCellFreesTheEntry : Prop :=
  (∀ ps : List Byte, parseFrame .policy 4 ps = .refused .wrongPort)
  ∧ ∀ (s : State) (o : Owner) (n i : Nat), s.executes o.port n (.removeCell o.port i) →
    let refused := fun st =>
      exec (.removeCell o.port i) s = .next (s.setPort o.port ((s.port o.port).answered n st []))
    (23 < i → refused .badParam)
    ∧ (i ≤ 23 → s.cell? i = none → refused .unknown)
    ∧ ∀ c, s.cell? i = some c →
        (c.owner ≠ o → refused .notOwner)
        ∧ (c.owner = o → (c.state ≠ .neighbour ∨ c.refCount ≠ 0 ∨ ∃ ho, s.handover? o = some ho ∧ ho.target = i) →
            refused .inUse)
        ∧ (c.owner = o → c.state = .neighbour → c.refCount = 0 → (∀ ho, s.handover? o = some ho → ho.target ≠ i) →
            ∃ t, exec (.removeCell o.port i) s = .next t ∧ t.cell? i = none ∧ (∀ j, j ≠ i → t.cell? j = s.cell? j)
              ∧ t.ct.triggers = s.ct.triggers ∧ t.port o.port = (s.port o.port).answered n .ok []
              ∧ s.sameExcept t [.ct, .port o.port])

/-- O18. SET SERVING makes an anchored NEIGHBOUR of an owner without a SERVING entry or a pending handover SERVING, and
CLEAR SERVING returns it to NEIGHBOUR where no plan rests on it; both clear the trigger count and candidate flag of
every entry of the owner, and change no other cell (R23, R24, R25). SET SERVING checks in the order BAD_PARAM above 23,
UNKNOWN, NOT_OWNER, STATE, NOT_TIMED; CLEAR SERVING is refused with NOT_SERVING without a SERVING entry and with IN_USE while
a follows-serving record, a call, an exchange, a pending handover or an open revert window of the owner stands. PI refuses
both with WRONG_PORT on POLICY. -/
def Obligations.ServingDesignationMoves : Prop :=
  (∀ ps : List Byte, parseFrame .policy 6 ps = .refused .wrongPort ∧ parseFrame .policy 7 ps = .refused .wrongPort)
  ∧ ∀ (s : State) (o : Owner) (n i : Nat),
    let moved := fun (t : State) (i : Nat) (x : CellState) =>
      (∀ j, t.cell? j = (s.cell? j).map (fun c =>
          if c.owner = o then
            { c with triggerCount := 0, candidate := false, state := if j = i then x else c.state }
          else c))
        ∧ t.ct.triggers = s.ct.triggers ∧ t.port o.port = (s.port o.port).answered n .ok []
        ∧ s.sameExcept t [.ct, .port o.port]
    let refused := fun (c : Instr) (st : Status) =>
      exec c s = .next (s.setPort o.port ((s.port o.port).answered n st []))
    (s.executes o.port n (.setServing o.port i) →
      (23 < i → refused (.setServing o.port i) .badParam)
      ∧ (i ≤ 23 → s.cell? i = none → refused (.setServing o.port i) .unknown)
      ∧ ∀ c, s.cell? i = some c →
          (c.owner ≠ o → refused (.setServing o.port i) .notOwner)
          ∧ (c.owner = o → (c.state ≠ .neighbour ∨ s.serving? o ≠ none ∨ s.handover? o ≠ none) →
              refused (.setServing o.port i) .state)
          ∧ (c.owner = o → c.state = .neighbour → s.serving? o = none → s.handover? o = none → c.anchor = none →
              refused (.setServing o.port i) .notTimed)
          ∧ (c.owner = o → c.state = .neighbour → c.anchor ≠ none → s.serving? o = none → s.handover? o = none →
              ∃ t, exec (.setServing o.port i) s = .next t ∧ moved t i .serving))
    ∧ (s.executes o.port n (.clearServing o.port) →
        let rests := (∃ h r, s.record? h = some r ∧ r.owner = o ∧ r.binding = .followsServing) ∨ s.call? o ≠ none
          ∨ (∃ j x, s.exchange? j = some x ∧ x.owner = o) ∨ s.handover? o ≠ none ∨ s.revert? o ≠ none
        (s.serving? o = none → refused (.clearServing o.port) .notServing)
        ∧ (s.serving? o ≠ none → rests → refused (.clearServing o.port) .inUse)
        ∧ (s.serving? o = some i → ¬rests →
            ∃ t, exec (.clearServing o.port) s = .next t ∧ moved t i .neighbour))

/-- O19. TIME CELL anchors the entry at the LT named less the slot and offset, at the frame named, with the drift
clamped to ±50,000 and the advance to 8,191, from its own LT or from the capture slot, which it empties (R26 to R29).
With no occurrence GRANTED or WAITING on the entry it moves nothing and answers three zero counts. Exactly one, which
resolves on the new anchor far enough ahead and conflicts with nothing, is GRANTED at its new nominal start with shift 0,
a WAITING one too where its index is taken, and is counted as moved (R55 to R57); the statement takes a start far enough
ahead that no notice is due yet, and no handover pending for a follows-serving one. The four bytes of the drift in the
response are notes/assumptions/8; that a follows-serving one resolves on this entry, be it SERVING or not, is
notes/assumptions/21; that an emptied slot keeps its LT is notes/assumptions/50. -/
def Obligations.TimeCellInstallsTheAnchor : Prop :=
  ∀ (s : State) (o : Owner) (n : Nat) (a : TimeCellParams) (c : Cell), s.executes o.port n (.timeCell o.port a) →
    a.time.valid = true → s.cell? a.index = some c → c.owner = o →
    let slot := s.tb.captures.get o
    let instant := if a.source = 1 then slot.lt else BitVec.ofNat 48 a.lt
    a.source = 0 ∧ (ticksTo instant s.tb.lt ≤ 294912000 ∨ ticksTo s.tb.lt instant ≤ 294912000)
      ∨ a.source = 1 ∧ slot.present = true ∧ ticksTo instant s.tb.lt ≤ 294912000 →
    let lt := instant - BitVec.ofNat 48 (a.time.slot * 12000 + a.time.offset)
    let drift : Int := if a.drift < -50000 then -50000 else if 50000 < a.drift then 50000 else a.drift
    let clamped := decide (a.drift < -50000 ∨ 50000 < a.drift)
    let timed : Cell := { c with anchor := some ⟨lt, a.time.frame, drift, clamped⟩, advance := min a.advance 8191 }
    let installs := fun (t : State) (counts : List Byte) => t.cell? a.index = some timed
      ∧ (∀ j, j ≠ a.index → t.cell? j = s.cell? j) ∧ t.ct.triggers = s.ct.triggers
      ∧ t.tb = { s.tb with captures := t.tb.captures }
      ∧ t.tb.captures.get o.other = s.tb.captures.get o.other
      ∧ t.tb.captures.get o = (if a.source = 1 then { slot with present := false, overrun := false } else slot)
      ∧ t.port o.port = (s.port o.port).answered n .ok
          (bytesOfNat 6 lt.toNat ++ bytesOfNat 2 a.time.frame ++ bytesOfInt 4 drift
            ++ [flagBits [clamped, decide (8191 < a.advance), a.source == 1 && slot.overrun]] ++ counts)
    let rests := fun (r : Record) => r.occ.entry = a.index ∧ (r.occ.state = .granted ∨ r.occ.state = .waiting)
    ((∀ h r, s.record? h = some r → ¬rests r) →
      ∃ t, exec (.timeCell o.port a) s = .next t ∧ installs t [0, 0, 0, 0, 0, 0]
        ∧ s.replannedExcept t [.tb, .ct, .port o.port])
    ∧ ∀ (h adv : Nat) (r : Record) (start : LocalTime), s.record? h = some r → rests r → r.owner = o →
        (∀ k q, k ≠ h → s.record? k = some q → ¬rests q) →
        r.binding = .byIndex a.index ∨ (r.binding = .followsServing ∧ s.handover? o = none) →
        (r.occ.state = .waiting → r.occ.taken = true) →
        timed.resolve { r.start with frame := (r.start.frame + r.occ.k * r.period.getD 0) % 2048 } s.tb.lt r.kind.isTx 0
          = .found start adv →
        s.farEnough start = true → before s.tb.lt (less start s.sc.params.lead) = true →
        (∀ k q, k ≠ h → s.record? k = some q → q.occ.state.inTimeline = true →
          s.conflicts o r.occ.profile start r.occ.remaining q = false) →
        ∃ t, exec (.timeCell o.port a) s = .next t ∧ installs t [0, 1, 0, 0, 0, 0]
          ∧ t.record? h = some
              { r with occ := { r.occ with
                  state := .granted, nominal := some start, advance := adv, placed := start, shift := 0
                  notice := some (less start s.sc.params.lead) } }
          ∧ (∀ k, k ≠ h → t.record? k = s.record? k)
          ∧ s.replannedExcept t [.tb, .ct, .rt, .port o.port]

/-- O20. MEASURE REPORT stores each level of the owner's entries, clamped to −320..−40, the last one standing; without a
SERVING entry it evaluates nothing, and says so where a pair was stored. A report on one NEIGHBOUR, with V the level of
another, SERVING entry: at L ≥ V + H the count rises to at most N and CANDIDATE is posted when it stands at N with the
flag clear; below, count and flag are cleared (R32 to R35). -/
def Obligations.MeasureReportStoresAndEvaluates : Prop :=
  (∀ (s : State) (o : Owner) (n : Nat) (pairs : List (Nat × Int)), s.executes o.port n (.measureReport o.port pairs) →
     1 ≤ pairs.length → pairs.length ≤ 8 → (∀ x ∈ pairs, x.1 ≤ 23) → s.serving? o = none →
     let owned := fun (x : Nat × Int) => (s.cell? x.1).any (fun c => c.owner == o)
     let stored := (pairs.filter owned).length
     let clamped := (pairs.filter (fun x => owned x && decide (x.2 < -320 ∨ -40 < x.2))).length
     ∃ t, exec (.measureReport o.port pairs) s = .next t
       ∧ (∀ i, t.cell? i = (s.cell? i).map (fun c =>
           match pairs.reverse.find? (fun x => x.1 == i) with
           | some x => if c.owner = o then { c with level := some (max (-320) (min (-40) x.2)) } else c
           | none => c))
       ∧ t.ct.triggers = s.ct.triggers
       ∧ t.port o.port = (s.port o.port).answered n .ok
           (bytesOfNat 1 stored ++ bytesOfNat 1 (pairs.length - stored) ++ bytesOfNat 1 clamped ++ [0]
             ++ [if 0 < stored then 1 else 0])
       ∧ s.sameExcept t [.ct, .port o.port])
  ∧ (∀ (s : State) (o : Owner) (n i k : Nat) (l v : Int) (c d : Cell),
     s.executes o.port n (.measureReport o.port [(i, l)]) → i ≠ k → s.cell? i = some c → c.owner = o →
     c.state = .neighbour → s.serving? o = some k → s.cell? k = some d → d.level = some v →
     let level := max (-320) (min (-40) l)
     let g := s.ct.triggers.get o
     let count := if v + g.hysteresis ≤ level then
         (if c.triggerCount = g.reports then c.triggerCount else c.triggerCount + 1) else 0
     let rises := v + g.hysteresis ≤ level ∧ count = g.reports ∧ c.candidate = false
     ∃ t, exec (.measureReport o.port [(i, l)]) s = .next t
       ∧ t.cell? i = some { c with
           level := some level, triggerCount := count
           candidate := decide (v + g.hysteresis ≤ level) && (c.candidate || decide (count = g.reports)) }
       ∧ (∀ j, j ≠ i → t.cell? j = s.cell? j) ∧ t.ct.triggers = s.ct.triggers
       ∧ (rises → t.port o.port =
           ((s.port o.port).push ⟨.candidate, i, .none, 0, BitVec.ofInt 16 (level - v), s.tb.lt⟩).answered n .ok
             [1, 0, if level = l then 0 else 1, 1, 0])
       ∧ (¬rises → t.port o.port = (s.port o.port).answered n .ok [1, 0, if level = l then 0 else 1, 0, 0])
       ∧ s.sameExcept t [.ct, .port o.port])

/-- O21. SET TRIGGER stores H clamped to 0..60 and N to 1..15, lowers every trigger count of the owner that exceeds N to
N, and answers the values stored; candidate flags and the other owner's entries stay (R36). -/
def Obligations.SetTriggerClampsAndStores : Prop :=
  ∀ (s : State) (o : Owner) (n h k : Nat), s.executes o.port n (.setTrigger o.port h k) →
    let hs := min h 60
    let ks := if k < 1 then 1 else min k 15
    ∃ t, exec (.setTrigger o.port h k) s = .next t ∧ t.ct.triggers.get o = ⟨hs, ks⟩
      ∧ t.ct.triggers.get o.other = s.ct.triggers.get o.other
      ∧ (∀ j, t.cell? j = (s.cell? j).map (fun c =>
          if c.owner = o ∧ ks < c.triggerCount then { c with triggerCount := ks } else c))
      ∧ t.port o.port = (s.port o.port).answered n .ok (bytesOfNat 1 hs ++ bytesOfNat 1 ks)
      ∧ s.sameExcept t [.ct, .port o.port]

/-! ### Reservations -/

/-- O22. An admitted RESERVE whose start conflicts with nothing takes the lowest free handle, counts on the entry of a
binding by index, stands GRANTED at its nominal start with shift 0, and has its notice set P before it, or WINDOW_SOON
posted at once where that instant is not after LT. The response carries handle, GRANTED, both starts, shift 0, record
ended clear and the slack stored (R38, R42 to R45, R71, R97). The outcome's code and the widths of shift and slack in the
response are notes/assumptions/8, a resumable byte other than 0 and 1 notes/assumptions/10. -/
def Obligations.ReserveGrantsAClearStart : Prop :=
  ∀ (s : State) (o : Owner) (n h entry on adv : Nat) (a : ReserveParams) (kind : Kind) (lt : LocalTime),
    s.executes o.port n (.reserve o.port a) → reservableKind a.kind = some kind →
    (a.binding ≤ 23 ∨ a.binding = 255) → a.start.valid = true → 1200 ≤ a.length → a.length ≤ kind.longest →
    a.level ≤ 15 → a.profile ≤ 15 → a.period ≤ 2048 →
    (a.period ≠ 0 → a.length < 144000 * a.period ∧ a.mask % 2 = 1) →
    s.bindingEntry o (bindingParam a.binding) = .ok entry → s.timed entry = true → s.recordsOf o < 40 →
    h < 64 → s.record? h = none → (∀ k, k < h → s.record? k ≠ none) →
    s.resolveFor o (bindingParam a.binding) entry a.start s.tb.lt kind.isTx 0 = .found on lt adv →
    s.farEnough lt = true → s.clearAt o a.profile lt a.length →
    let slack := min a.slack 144000
    let resumable := kind.mayResume && flagParam a.resumable
    let instant := less lt s.sc.params.lead
    ∃ t, exec (.reserve o.port a) s = .next t
      ∧ t.record? h = some
          { owner := o, kind := kind, binding := bindingParam a.binding, start := a.start, length := a.length
            level := a.level, period := if a.period = 0 then none else some a.period
            count := if a.period = 0 then some 1 else if a.count = 0 then none else some a.count
            remaining := if a.period = 0 then some 0 else if a.count = 0 then none else some (a.count - 1)
            mask := if a.period = 0 then 65535 else BitVec.ofNat 16 a.mask
            slack := slack, resumable := resumable, profile := a.profile, link := none, served := 0, lost := 0
            occ :=
              { k := 0, state := .granted, entry := on, nominal := some lt, advance := adv, placed := lt, shift := 0
                remaining := a.length, served := 0, suspensions := 0, level := a.level, slack := slack
                profile := a.profile, resumable := resumable, taken := true, firstRise := none, cutAt := none, shortfall := false
                resumeFloor := none, deadline := none, lateLoad := false, widened := false
                notice := if before s.tb.lt instant then some instant else none } }
      ∧ (∀ k, k ≠ h → t.record? k = s.record? k)
      ∧ (∀ j, t.cell? j = (s.cell? j).map (fun c =>
          if bindingParam a.binding = .byIndex j then { c with refCount := c.refCount + 1 } else c))
      ∧ t.ct.triggers = s.ct.triggers
      ∧ (let posted := if before s.tb.lt instant then s.port o.port
            else (s.port o.port).push ⟨.windowSoon, h, .none, 0, sat16 (ticksTo s.tb.lt lt / 8), s.tb.lt⟩
         t.port o.port = posted.answered n .ok
          (bytesOfNat 1 h ++ [0] ++ bytesOfNat 6 lt.toNat ++ bytesOfNat 6 lt.toNat ++ [0, 0, 0] ++ [0]
            ++ bytesOfNat 3 slack))
      ∧ s.replannedExcept t [.ct, .rt, .port o.port]

/-- O23. An accepted AMEND writes each selected field into the record, slack clamped to 144,000 and remaining to 65,534,
leaves the current occurrence with its own copies, its bit of the mask among them, and answers the standing values and
the current index (R51, R52). Selection bits 5..7 select nothing (notes/assumptions/35), an unlimited byte other than 0
and 1 is open (notes/assumptions/10), and the response's slack has 3 bytes and remaining 0 beside a set unlimited flag
(notes/assumptions/8). -/
def Obligations.AmendWritesTheStandingValues : Prop :=
  ∀ (s : State) (o : Owner) (n : Nat) (a : AmendParams) (r : Record), s.executes o.port n (.amend o.port a) →
    s.record? a.handle = some r → r.owner = o → r.link = none → r.period ≠ none → a.selection % 32 ≠ 0 →
    (a.selection.testBit 0 = true → a.level ≤ 15) → (a.selection.testBit 2 = true → a.profile ≤ 15) →
    (a.selection.testBit 3 = true → a.mask ≠ 0) →
    ∃ t q, exec (.amend o.port a) s = .next t ∧ t.record? a.handle = some q
      ∧ q = { r with level := q.level, slack := q.slack, profile := q.profile, mask := q.mask, remaining := q.remaining }
      ∧ q.level = (if a.selection.testBit 0 then a.level else r.level)
      ∧ q.slack = (if a.selection.testBit 1 then min a.slack 144000 else r.slack)
      ∧ q.profile = (if a.selection.testBit 2 then a.profile else r.profile)
      ∧ q.mask = (if a.selection.testBit 3 then BitVec.ofNat 16 a.mask else r.mask)
      ∧ q.remaining = (if a.selection.testBit 4 then
          (if flagParam a.unlimited then none else some (min a.remaining 65534)) else r.remaining)
      ∧ (∀ k, k ≠ a.handle → t.record? k = s.record? k)
      ∧ t.port o.port = (s.port o.port).answered n .ok
          (bytesOfNat 1 q.level ++ bytesOfNat 3 q.slack ++ bytesOfNat 1 q.profile ++ bytesOfNat 2 q.mask.toNat
            ++ bytesOfNat 2 (q.remaining.getD 0) ++ [if q.remaining = none then 1 else 0] ++ bytesOfNat 2 r.occ.k)
      ∧ s.sameExcept t [.rt, .port o.port]

/-- O24. CANCEL of a record whose occurrence is not ACTIVE ends it CANCELLED: the record is gone, its entry's count falls,
neither counter changes, and only a SUSPENDED one posts WINDOW_END; CANCEL of the ACTIVE window, here the only one of the
timeline, ends it CUT at once, drops the line and counts it lost (R53, R41, R95). No RECORD_ENDED is posted. The code of
the outcome in the response is notes/assumptions/8. -/
def Obligations.CancelEndsTheRecord : Prop :=
  ∀ (s : State) (o : Owner) (n h : Nat) (r : Record), s.executes o.port n (.cancel o.port h) →
    s.record? h = some r → r.owner = o → r.link = none →
    let gone := fun (t : State) => t.record? h = none ∧ (∀ k, k ≠ h → t.record? k = s.record? k)
      ∧ (∀ j, t.cell? j = (s.cell? j).map (fun c =>
          if r.binding = .byIndex j then { c with refCount := c.refCount - 1 } else c))
      ∧ t.ct.triggers = s.ct.triggers
    (r.occ.state ≠ .active →
      ∃ t, exec (.cancel o.port h) s = .next t ∧ gone t
        ∧ (let posted := if r.occ.state = .suspended then
              (s.port o.port).push ⟨.windowEnd, h, .cancelled, windowEndFlags false false true r.occ,
                sat16 (r.occ.served / 16), s.tb.lt⟩
            else s.port o.port
           t.port o.port = posted.answered n .ok
            ([0] ++ bytesOfNat 2 r.occ.k ++ bytesOfNat 2 r.served ++ bytesOfNat 2 r.lost))
        ∧ s.replannedExcept t [.ct, .rt, .port o.port])
    ∧ (r.occ.state = .active → s.timeline = [(h, r)] →
        ∃ t, exec (.cancel o.port h) s = .next t ∧ gone t
          ∧ t.port o.port = ((s.port o.port).push ⟨.windowEnd, h, .cut, windowEndFlags false true false r.occ,
              sat16 ((r.occ.served + ticksTo r.occ.placed s.tb.lt) / 16), s.tb.lt⟩).answered n .ok
              ([1] ++ bytesOfNat 2 r.occ.k ++ bytesOfNat 2 r.served ++ bytesOfNat 2 (min (r.lost + 1) 65535))
          ∧ t.wc = { s.wc with
              rxEn := false, txEn := false, lastEnd := some s.tb.lt, next := none, load := t.wc.load }
          ∧ t.sc = { s.sc with spanShort := t.sc.spanShort } ∧ s.sameExcept t [.ct, .rt, .wc, .sc, .port o.port])

/-! ### The timeline -/

/-- O25. SET POLICY stores T1 ≤ T2 ≤ T3 ≤ 16 and G ≤ 12,000 and answers them; anything else is refused with BAD_POLICY
and changes nothing. Tokens, windows already in the timeline and scheduled cuts stay. On a SUB port PI refuses it with
WRONG_PORT. The defaults are 2, 6, 11 and 2,400 (R65). -/
def Obligations.SetPolicyStoresAnOrderedPolicy : Prop :=
  (∀ (o : Owner) (ps : List Byte), parseFrame o.port 15 ps = .refused .wrongPort)
  ∧ State.reset.arb.t1 = 2 ∧ State.reset.arb.t2 = 6 ∧ State.reset.arb.t3 = 11 ∧ State.reset.arb.guard = 2400
  ∧ ∀ (s : State) (n t1 t2 t3 g : Nat), s.executes .policy n (.setPolicy .policy t1 t2 t3 g) →
    (t1 ≤ t2 → t2 ≤ t3 → t3 ≤ 16 → g ≤ 12000 →
      ∃ t, exec (.setPolicy .policy t1 t2 t3 g) s = .next t
        ∧ t.arb = { s.arb with t1 := t1, t2 := t2, t3 := t3, guard := g }
        ∧ t.port .policy = (s.port .policy).answered n .ok
            (bytesOfNat 1 t1 ++ bytesOfNat 1 t2 ++ bytesOfNat 1 t3 ++ bytesOfNat 2 g)
        ∧ s.replannedExcept t [.arb, .port .policy])
    ∧ (t2 < t1 ∨ t3 < t2 ∨ 16 < t3 ∨ 12000 < g →
        exec (.setPolicy .policy t1 t2 t3 g) s =
          .next (s.setPort .policy ((s.port .policy).answered n .badPolicy [])))

/-- O26. The beats relation decides by its first step that applies: the ACTIVE window loses only to class 0 of the other
owner; then the lower class; then the token's holder; then the lower level; then the lower handle (R64, R67). Of two
windows with different handles, neither ACTIVE, exactly one beats the other. -/
def Obligations.BeatsDecidesEveryContest : Prop :=
  ∀ (s : State) (token : Owner) (x y : Nat × Record),
    let arrival := fun (w : Nat × Record) => (⟨w.1, w.2.owner, w.2.kind, w.2.occ.level⟩ : Arrival)
    let beats := fun (v w : Nat × Record) => (s.beats token (arrival v) w.1 w.2).1
    let cls := fun (w : Nat × Record) =>
      if w.2.occ.level < s.arb.t1 then 0 else if w.2.occ.level < s.arb.t2 then 1
      else if w.2.occ.level < s.arb.t3 then 2 else 3
    (y.2.occ.state = .active → (beats x y = true ↔ cls x = 0 ∧ x.2.owner ≠ y.2.owner))
    ∧ (y.2.occ.state ≠ .active →
        (cls x ≠ cls y → (beats x y = true ↔ cls x < cls y))
        ∧ (cls x = cls y → x.2.owner ≠ y.2.owner → (beats x y = true ↔ token = x.2.owner))
        ∧ (cls x = cls y → x.2.owner = y.2.owner → x.2.occ.level ≠ y.2.occ.level →
            (beats x y = true ↔ x.2.occ.level < y.2.occ.level))
        ∧ (x.2.owner = y.2.owner → x.2.occ.level = y.2.occ.level → (beats x y = true ↔ x.1 < y.1)))
    ∧ (x.1 ≠ y.1 → x.2.occ.state ≠ .active → y.2.occ.state ≠ .active → beats x y = !beats y x)

/-- O27. The arbitration of an arrival with one rival. Where that is a GRANTED window of the other owner, neither a call
burst, it wins by the lower class, or at equal classes by the token, which then passes (R64, R67, R68). Winning, it stands
GRANTED at its nominal start and the rival is placed again within its slack, clear of every window, or goes DENIED (R72,
R76); losing, it is placed so itself, or goes DENIED, and the rival stays (R71, R75). Where the rival is the ACTIVE window,
it wins only as class 0 of the other owner, and no token passes. Winning, it stands GRANTED, and the rival is cut at its
start less the guard, or at LT where that is later; an earlier cut stands, the later floor and the first deadline too, and
the flag tells a gap below the guard (R78). A cut at LT is taken at once: a window that cannot be resumed ends CUT with its
line low (R79, R95). A loser placed again stands at or after its nominal start and the guarded end of the window that beat
it. At equal cut times the first flag stays (notes/assumptions/40), the ending of the cut is handed to RT at once
(notes/assumptions/39), and the deadline counts the record's length from the first rise (notes/assumptions/26). -/
def Obligations.ContestOfTwoOwnersIsDecided : Prop :=
  (∀ (w : Work) (h k : Nat) (r q : Record) (origin : Origin) (start first : LocalTime), w.st.record? h = some r → h ≠ k →
     r.occ.nominal = some start → q.occ.nominal = some first →
     w.st.timeline.filter (fun y => w.st.conflicts r.owner r.occ.profile start r.occ.remaining y.2) = [(k, q)] →
     q.owner ≠ r.owner → q.occ.state = .granted → r.kind.isCall = false → q.kind.isCall = false →
     let cls := fun (x : Record) =>
       if x.occ.level < w.st.arb.t1 then 0 else if x.occ.level < w.st.arb.t2 then 1
       else if x.occ.level < w.st.arb.t3 then 2 else 3
     let t := (w.arbitrate h r origin).1.st
     let tasks := (w.arbitrate h r origin).2
     let placedAgain := fun (j : Nat) (x : Record) (nominal beaten : LocalTime) => ∃ at' notice,
       t.record? j = some { x with occ := { x.occ with
           state := .granted, placed := at', shift := ticksTo nominal at', notice := notice } }
         ∧ before (plus nominal x.occ.slack) at' = false
         ∧ (w.st.windowsBounded → x.occ.remaining + w.st.arb.guard < 17592186044416 → x.occ.slack < 17592186044416 →
             (∀ i y, i ≠ j → t.record? i = some y → y.occ.state.inTimeline = true →
               ticksTo y.occ.placed y.occ.endLt + w.st.arb.guard < 17592186044416) →
             before at' (laterOf nominal beaten) = false)
         ∧ ∀ i y, i ≠ j → t.record? i = some y → y.occ.state.inTimeline = true →
             t.conflicts x.owner x.occ.profile at' x.occ.remaining y = false
     (∀ c, t.token c = if c = cls r ∧ cls r = cls q then (w.st.token c).other else w.st.token c)
     ∧ (cls r < cls q ∨ (cls r = cls q ∧ w.st.token (cls r) = r.owner) →
         (∃ notice, t.record? h = some { r with occ := { r.occ with
             state := .granted, placed := start, shift := 0, notice := notice } })
         ∧ ((placedAgain k q first (plus start (r.occ.remaining + w.st.arb.guard)) ∧ tasks = [])
           ∨ ((∃ y, t.record? k = some y ∧ y.occ.state = .withdrawn) ∧ tasks = [.ended k q.occ.k (.denied true)])))
     ∧ (cls q < cls r ∨ (cls r = cls q ∧ w.st.token (cls r) = q.owner) →
         t.record? k = some q
         ∧ ((placedAgain h r start (plus q.occ.endLt w.st.arb.guard) ∧ tasks = [])
           ∨ (t.record? h = some r ∧ tasks = [.ended h r.occ.k (.denied false)]))))
  ∧ ∀ (w : Work) (h k : Nat) (r q : Record) (origin : Origin) (start : LocalTime), w.st.record? h = some r → h ≠ k →
    r.occ.nominal = some start →
    w.st.timeline.filter (fun y => w.st.conflicts r.owner r.occ.profile start r.occ.remaining y.2) = [(k, q)] →
    q.occ.state = .active → w.st.arb.guard ≤ 12000 →
    let now := w.st.tb.lt
    let guard := w.st.arb.guard
    let t := (w.arbitrate h r origin).1.st
    let tasks := (w.arbitrate h r origin).2
    let wins := r.occ.level < w.st.arb.t1 ∧ r.owner ≠ q.owner
    let cut := if before now (less start guard) then less start guard else now
    let floor := plus start (r.occ.remaining + guard)
    let marked := { q.occ with
      cutAt := some (match q.occ.cutAt with
        | none => cut
        | some c => if before cut c then cut else c)
      shortfall := match q.occ.cutAt with
        | none => decide (ticksTo cut start < guard)
        | some c => if before cut c then decide (ticksTo cut start < guard) else q.occ.shortfall
      resumeFloor := some (match q.occ.cutAt with
        | none => floor
        | some _ => laterOf (q.occ.resumeFloor.getD floor) floor)
      deadline := some (q.occ.deadline.getD (plus (q.occ.firstRise.getD q.occ.placed) (q.length + q.occ.slack))) }
    t.arb = w.st.arb
    ∧ (before now (less start guard) = true → ticksTo cut start = guard)
    ∧ (wins →
        (∃ notice, t.record? h = some { r with occ := { r.occ with
            state := .granted, placed := start, shift := 0, notice := notice } })
        ∧ (marked.cutAt ≠ some now → t.record? k = some { q with occ := marked } ∧ t.wc = w.st.wc ∧ tasks = [])
        ∧ (marked.cutAt = some now → q.occ.resumable = false ∨ 3 ≤ q.occ.suspensions →
            ticksTo q.occ.placed now < q.occ.remaining →
            t.record? k = some { q with occ := { marked with
              state := .withdrawn, served := q.occ.served + ticksTo q.occ.placed now
              remaining := q.occ.remaining - ticksTo q.occ.placed now, cutAt := none, notice := none } }
            ∧ t.wc = { w.st.wc with rxEn := false, txEn := false, lastEnd := some now }
            ∧ t.port q.owner.port = (w.st.port q.owner.port).push ⟨.windowEnd, k, .cut,
                windowEndFlags false true false marked, sat16 ((q.occ.served + ticksTo q.occ.placed now) / 16), now⟩
            ∧ tasks = [.ended k q.occ.k .cut]))
    ∧ (¬wins → t.record? k = some q ∧ t.wc = w.st.wc
        ∧ ((t.record? h = some r ∧ tasks = [.ended h r.occ.k (.denied false)])
          ∨ (tasks = [] ∧ ∃ at' notice,
              t.record? h = some { r with occ := { r.occ with
                state := .granted, placed := at', shift := ticksTo start at', notice := notice } }
              ∧ before (plus start r.occ.slack) at' = false
              ∧ (w.st.windowsBounded → r.occ.remaining + guard < 17592186044416 → r.occ.slack < 17592186044416 →
                  before at' (laterOf start (plus q.occ.endLt
                    (if r.owner = q.owner ∧ r.occ.profile = q.occ.profile then 0 else guard))) = false)
              ∧ ∀ i y, i ≠ h → t.record? i = some y → y.occ.state.inTimeline = true →
                  t.conflicts r.owner r.occ.profile at' r.occ.remaining y = false)))

/-- O28. A search answers a start that conflicts with no window of the timeline and is not after the latest start; it
answers the lower bound itself where that is such a start, and fails where the bound is after the latest start. The start
is the earliest one: every tick from the lower bound to before it conflicts with some window, and where none is answered
every tick from the lower bound to the latest start does (R63, R74). Of the earliest, the statement takes windows, lengths
and ranges short of half the circle of LT, as every rule's bounds make them. -/
def Obligations.SearchFindsAFreeStart : Prop :=
  ∀ (s : State) (o : Owner) (profile len : Nat) (low latest : LocalTime),
    (∀ at', s.search o profile len low latest = some at' →
      s.clearAt o profile at' len ∧ before latest at' = false)
    ∧ (s.clearAt o profile low len → before latest low = false → s.search o profile len low latest = some low)
    ∧ (before latest low = true → s.search o profile len low latest = none)
    ∧ (s.windowsBounded → len + s.arb.guard < 17592186044416 → ticksTo low latest < 17592186044416 →
        let taken := fun (d : Nat) => ∃ h y, s.record? h = some y ∧ y.occ.state.inTimeline = true
          ∧ s.conflicts o profile (plus low d) len y = true
        (∀ at', s.search o profile len low latest = some at' →
          ∃ d, d ≤ ticksTo low latest ∧ at' = plus low d ∧ ∀ e, e < d → taken e)
        ∧ (s.search o profile len low latest = none → ∀ d, d ≤ ticksTo low latest → taken d))

/-! ### Reads -/

/-- O29. READ TIME, READ POLICY, READ TIMELINE and READ SLEEP answer what stands, byte by byte, and change nothing but
their port's slot (R17, R66, R84, R167); a position above 63 is refused. READ CALL and READ HANDOVER answer the issuing
owner's session or handover, or on POLICY the owner's that the byte names, and refuse any other byte with BAD_PARAM; absent
ones read zero (R117, R136). While a call's receive record is gone its period number is open and a free value is taken:
then the model's counter of free values moves too (notes/assumptions/11). The model's choices in the results: the position
sent back where no window is returned (notes/assumptions/41), 0 after a clear present flag (notes/assumptions/43), the order
of the ports in READ SLEEP (notes/assumptions/45), and the widths and codes of notes/assumptions/8. -/
def Obligations.ReadsOfPartAndSessionsChangeNothing : Prop :=
  (∀ (s : State) (p : Port) (n : Nat),
     let answers := fun (i : Instr) (st : Status) (bytes : List Byte) =>
       exec i s = .next (s.setPort p ((s.port p).answered n st bytes))
     let flag := fun (b : Bool) => ([if b then 1 else 0] : List Byte)
     let window := fun (w : Nat × Record) =>
       let x := w.2.occ
       bytesOfNat 1 w.1 ++ [flagBits [w.2.owner == .b, x.state == .active, x.state == .suspended, w.2.kind.isTx,
           x.cutAt.isSome]]
         ++ bytesOfNat 1 x.profile
         ++ bytesOfNat 1 (if x.level < s.arb.t1 then 0 else if x.level < s.arb.t2 then 1
             else if x.level < s.arb.t3 then 2 else 3)
         ++ bytesOfNat 6 x.placed.toNat
         ++ bytesOfNat 6 (if x.state = .active then x.cutAt.getD (plus x.placed x.remaining)
             else plus x.placed x.remaining).toNat
     let vote := fun (x : PortState) => flag x.enabled ++ flag (x.vote == some .allow)
     (∀ f, s.executes p n (.readTime p) → (s.port p).buffer = some f → answers (.readTime p) .ok
       (bytesOfNat 6 s.tb.lt.toNat ++ bytesOfNat 4 s.tb.ratio ++ bytesOfNat 2 s.tb.residue
         ++ [flagBits [s.tb.uncalibrated, s.tb.run.isSome]] ++ bytesOfNat 1 f.arrival.code))
     ∧ (s.executes p n (.readPolicy p) → answers (.readPolicy p) .ok
         (bytesOfNat 1 s.arb.t1 ++ bytesOfNat 1 s.arb.t2 ++ bytesOfNat 1 s.arb.t3 ++ bytesOfNat 2 s.arb.guard
           ++ bytesOfNat 1 (s.token 0).code ++ bytesOfNat 1 (s.token 1).code ++ bytesOfNat 1 (s.token 2).code
           ++ bytesOfNat 1 (s.token 3).code))
     ∧ (∀ k, s.executes p n (.readTimeline p k) → k ≤ 63 → answers (.readTimeline p k) .ok
         (bytesOfNat 1 s.timeline.length ++ bytesOfNat 1 k ++ ((s.timeline.drop k).take 5).flatMap window))
     ∧ (∀ k, s.executes p n (.readTimeline p k) → 63 < k → answers (.readTimeline p k) .badParam [])
     ∧ (s.executes p n (.readSleep p) →
         let a := s.sc.params
         let x := s.sc.last
         let c := s.tb.lastCal
         answers (.readSleep p) .ok
           (bytesOfNat 3 a.lead ++ bytesOfNat 1 a.warmUp ++ bytesOfNat 2 a.spanMin ++ bytesOfNat 3 a.spanMax
             ++ bytesOfNat 2 a.uncertainty ++ bytesOfNat 1 a.exponent ++ bytesOfNat 1 a.shift ++ bytesOfNat 1 a.autoInterval
             ++ vote (s.port .subA) ++ vote (s.port .subB) ++ vote (s.port .policy)
             ++ flag s.sc.spanShort ++ bytesOfNat 1 s.sc.wakes
             ++ bytesOfNat 6 x.entryLt.toNat ++ bytesOfNat 3 x.span ++ flag x.clamped ++ flag x.noTarget
             ++ bytesOfNat 1 (match x.kind with
                 | .window => 0
                 | .anchorExpiry => 1
                 | .switch => 2
                 | .revertClose => 3
                 | .none => 4)
             ++ bytesOfNat 3 x.wakeCount ++ bytesOfNat 5 x.advance ++ bytesOfNat 2 x.widening
             ++ bytesOfNat 1 (match x.reason with
                 | .none => 0
                 | .timer => 13
                 | .command => 14)
             ++ bytesOfNat 1 x.port
             ++ bytesOfNat 1 (match c.outcome with
                 | .none => 0
                 | .done => 1
                 | .rejected => 2
                 | .aborted => 3)
             ++ bytesOfNat 1 c.exponent ++ bytesOfNat 4 c.count ++ bytesOfNat 4 c.measured ++ bytesOfInt 4 c.ppm
             ++ bytesOfNat 6 c.lt.toNat ++ flag c.auto)))
  ∧ (∀ (s : State) (p : Port) (n : Nat) (which : Option Nat),
     let answers := fun (i : Instr) (st : Status) (bytes : List Byte) =>
       exec i s = .next (s.setPort p ((s.port p).answered n st bytes))
     let owner := match which with
       | none => p.owner?
       | some 0 => some .a
       | some 1 => some .b
       | some (_ + 2) => none
     let flag := fun (b : Bool) => ([if b then 1 else 0] : List Byte)
     let time := fun (x : CellTime) => bytesOfNat 2 x.frame ++ bytesOfNat 1 x.slot ++ bytesOfNat 2 x.offset
     let present := fun (x : Option Nat) => flag x.isSome ++ bytesOfNat 1 (x.getD 0)
     let session := fun (c : Call) (period : Nat) =>
       bytesOfNat 1 (if c.state = .running then 1 else 2) ++ time c.params.rxStart ++ bytesOfNat 3 c.params.rxLength
         ++ bytesOfNat 3 c.params.txDelay ++ bytesOfNat 3 c.params.txLength ++ bytesOfNat 1 c.params.period
         ++ bytesOfNat 1 c.params.level ++ bytesOfNat 1 c.params.allowance ++ bytesOfNat 1 c.params.threshold
         ++ bytesOfNat 1 c.params.rxProfile ++ bytesOfNat 1 c.params.txProfile ++ present c.rxHandle ++ present c.txHandle
         ++ bytesOfNat 2 period ++ flag c.reference.isSome ++ bytesOfNat 2 (c.reference.getD 0)
         ++ bytesOfNat 1 c.yields.length ++ c.yields.flatMap (fun y => bytesOfNat 2 y) ++ bytesOfNat 1 c.degradation
         ++ bytesOfNat 2 c.granted ++ bytesOfNat 2 c.refused
     (s.executes p n (.readHandover p which) →
       (owner = none → answers (.readHandover p which) .badParam [])
       ∧ ∀ o, owner = some o → answers (.readHandover p which) .ok
           ((match s.handover? o with
             | none => List.replicate 16 0
             | some ho => [1, if ho.kind = .revert then 1 else 0] ++ bytesOfNat 1 ho.source ++ bytesOfNat 1 ho.target
                 ++ time ho.time ++ bytesOfNat 6 ho.ts.toNat ++ flag ho.clamped)
             ++ match s.revert? o with
               | none => List.replicate 8 0
               | some v => [1] ++ bytesOfNat 1 v.retiring ++ bytesOfNat 6 v.closeLt.toNat))
     ∧ (s.executes p n (.readCall p which) →
         (owner = none → answers (.readCall p which) .badParam [])
         ∧ ∀ o, owner = some o →
             (s.call? o = none → answers (.readCall p which) .ok (List.replicate 36 0))
             ∧ ∀ c, s.call? o = some c →
                 (∀ h r, c.rxHandle = some h → s.record? h = some r →
                   answers (.readCall p which) .ok (session c r.occ.k))
                 ∧ ((∀ h, c.rxHandle = some h → s.record? h = none) →
                     ∃ t period, exec (.readCall p which) s = .next t ∧ t.free = s.free + 1
                       ∧ t.port p = (s.port p).answered n .ok (session c period) ∧ s.sameExcept t [.free, .port p])))

/-- O30. READ CELL, READ RESERVATION and READ EXCHANGE answer the entry, record or exchange of the issuing owner as it
stands, byte by byte, and change nothing but the slot; they refuse an index out of range with BAD_PARAM, a free one with
UNKNOWN and the other owner's with NOT_OWNER (R22, R59, R133). The model's choices in the results: READ EXCHANGE of seven or
eight steps answers more than 96 bytes (notes/assumptions/9); a call's index in the session link (notes/assumptions/32); the
ticks served of an ACTIVE occurrence (notes/assumptions/38); 0 for an absent handle and an absent link
(notes/assumptions/43); widths and codes (notes/assumptions/8). -/
def Obligations.TableReadsChangeNothing : Prop :=
  ∀ (s : State) (o : Owner) (n i : Nat),
    let answers := fun (c : Instr) (st : Status) (bytes : List Byte) =>
      exec c s = .next (s.setPort o.port ((s.port o.port).answered n st bytes))
    let flag := fun (b : Bool) => ([if b then 1 else 0] : List Byte)
    let time := fun (x : CellTime) => bytesOfNat 2 x.frame ++ bytesOfNat 1 x.slot ++ bytesOfNat 2 x.offset
    let cell := fun (c : Cell) =>
      bytesOfNat 1 (match c.state with
          | .neighbour => 1
          | .serving => 2
          | .retiring => 3)
        ++ bytesOfNat 2 c.channel ++ bytesOfNat 2 c.code
        ++ (match c.anchor with
          | none => List.replicate 19 0
          | some a => [1] ++ bytesOfNat 6 a.lt.toNat ++ bytesOfNat 2 a.frame ++ bytesOfInt 3 a.drift ++ flag a.clamped
              ++ bytesOfNat 6 (plus a.lt 2359296000).toNat)
        ++ bytesOfNat 2 c.advance
        ++ (match c.level with
          | none => [0, 0, 0]
          | some l => [1] ++ bytesOfInt 2 l)
        ++ bytesOfNat 1 c.triggerCount ++ flag c.candidate ++ bytesOfNat 1 c.refCount
    let record := fun (r : Record) =>
      let x := r.occ
      bytesOfNat 1 (match r.kind with
          | .page => 0
          | .meas => 1
          | .search => 2
          | .sigRx => 3
          | .sigTx => 4
          | .access => 5
          | .callRx => 6
          | .callTx => 7
          | .stepRx => 8
          | .stepTx => 9)
        ++ bytesOfNat 1 (match r.binding with
          | .byIndex j => j
          | .followsServing => 255)
        ++ time r.start ++ bytesOfNat 3 r.length ++ bytesOfNat 2 (r.period.getD 0) ++ bytesOfNat 2 (r.count.getD 0)
        ++ bytesOfNat 1 r.level ++ bytesOfNat 3 r.slack ++ bytesOfNat 1 r.profile ++ bytesOfNat 2 r.mask.toNat
        ++ bytesOfNat 2 (r.remaining.getD 0) ++ flag r.remaining.isNone ++ flag r.resumable
        ++ (match r.link with
          | none => [0, 0, 0]
          | some .call => [1, 0, if r.owner = .b then 1 else 0]
          | some (.exchange j) => [1, 1] ++ bytesOfNat 1 j)
        ++ bytesOfNat 2 r.served ++ bytesOfNat 2 r.lost ++ bytesOfNat 2 x.k
        ++ bytesOfNat 1 (match x.state with
          | .waiting => 0
          | .granted => 1
          | .withdrawn => 2
          | .active => 3
          | .suspended => 4)
        ++ bytesOfNat 1 x.entry ++ bytesOfNat 3 x.shift ++ bytesOfNat 3 x.remaining ++ bytesOfNat 3 x.served
        ++ bytesOfNat 1 x.suspensions ++ bytesOfNat 1 x.level ++ bytesOfNat 3 x.slack ++ bytesOfNat 1 x.profile
        ++ (if x.state = .waiting then List.replicate 12 0
            else bytesOfNat 6 (x.nominal.getD 0).toNat ++ bytesOfNat 6 x.placed.toNat)
    let exchange := fun (x : Exchange) =>
      flag (x.state == .running) ++ flag x.cancelPending ++ bytesOfNat 1 x.level ++ time x.earliest ++ time x.latest
        ++ bytesOfNat 1 x.candidate ++ time (x.earliest.add (x.candidate * 12000)) ++ bytesOfNat 1 x.entry
        ++ bytesOfNat 1 x.done ++ bytesOfNat 1 x.steps.length
        ++ x.steps.flatMap (fun y => flag y.tx ++ bytesOfNat 3 y.offset ++ bytesOfNat 3 y.length ++ bytesOfNat 1 y.profile
            ++ flag y.handle.isSome ++ bytesOfNat 1 (y.handle.getD 0) ++ flag (y.ending == some .done))
    (s.executes o.port n (.readCell o.port i) →
      (23 < i → answers (.readCell o.port i) .badParam [])
      ∧ (i ≤ 23 → s.cell? i = none → answers (.readCell o.port i) .unknown [])
      ∧ ∀ c, s.cell? i = some c →
          (c.owner ≠ o → answers (.readCell o.port i) .notOwner [])
          ∧ (c.owner = o → answers (.readCell o.port i) .ok (cell c)))
    ∧ (s.executes o.port n (.readReservation o.port i) →
        (63 < i → answers (.readReservation o.port i) .badParam [])
        ∧ (i ≤ 63 → s.record? i = none → answers (.readReservation o.port i) .unknown [])
        ∧ ∀ r, s.record? i = some r →
            (r.owner ≠ o → answers (.readReservation o.port i) .notOwner [])
            ∧ (r.owner = o → answers (.readReservation o.port i) .ok (record r)))
    ∧ (s.executes o.port n (.readExchange o.port i) →
        (3 < i → answers (.readExchange o.port i) .badParam [])
        ∧ (i ≤ 3 → s.exchange? i = none → answers (.readExchange o.port i) .unknown [])
        ∧ ∀ x, s.exchange? i = some x →
            (x.owner ≠ o → answers (.readExchange o.port i) .notOwner [])
            ∧ (x.owner = o → answers (.readExchange o.port i) .ok (exchange x)))

/-! ### Windows and the front-end link -/

/-- O31. SET PROFILE replaces the four settings of one profile and answers them; a write of the profile that last loaded
names sets written since load, and one of the profile in flight is noted; a setting out of range is refused with
BAD_PARAM (R87, R91). The word in flight keeps its settings. -/
def Obligations.SetProfileWritesOneProfile : Prop :=
  ∀ (s : State) (o : Owner) (n i band channel gain antenna : Nat),
    let c := Instr.setProfile o.port i band channel gain antenna
    s.executes o.port n c →
    (15 < i ∨ 63 < band ∨ 7 < gain ∨ 3 < antenna →
      exec c s = .next (s.setPort o.port ((s.port o.port).answered n .badParam [])))
    ∧ (i ≤ 15 → band ≤ 63 → gain ≤ 7 → antenna ≤ 3 →
        ∃ t, exec c s = .next t ∧ t.profile o i = ⟨band, channel, gain, antenna⟩
          ∧ (∀ u j, (u, j) ≠ (o, i) → t.profile u j = s.profile u j)
          ∧ t.wc = { s.wc with profiles := t.wc.profiles, writtenSince := t.wc.writtenSince, load := t.wc.load }
          ∧ t.wc.writtenSince = (s.wc.writtenSince || s.wc.lastLoaded == some (o, i))
          ∧ t.wc.load = s.wc.load.map (fun l =>
              if l.owner = o ∧ l.profile = i then { l with rewritten := true } else l)
          ∧ t.port o.port = (s.port o.port).answered n .ok
              (bytesOfNat 1 band ++ bytesOfNat 2 channel ++ bytesOfNat 1 gain ++ bytesOfNat 1 antenna)
          ∧ s.sameExcept t [.wc, .port o.port])

/-- O32. The fields of a link word stand where the table of R90 puts them, and its bits travel as its pulses say: at the
i-th rising edge of FL_CLK, 16 + 4i ticks into the load, FL_DATA is bit 31 − i, and FL_LE is high in ticks 144 to 151. -/
def Obligations.LinkWordTravelsAsLaidOut : Prop :=
  (∀ (sequence : Nat) (o : Owner) (f : Profile), sequence < 16 → f.band < 64 → f.channel < 65536 → f.gain < 8 →
    f.antenna < 4 →
    let w := (linkWord sequence o f).toNat
    w / 268435456 = sequence ∧ w / 134217728 % 2 = o.code ∧ w / 2097152 % 64 = f.band
      ∧ w / 32 % 65536 = f.channel ∧ w / 4 % 8 = f.gain ∧ w % 4 = f.antenna)
  ∧ ∀ (s : State) (l : Load) (k : Nat), s.wc.load = some l → s.tb.lt = plus l.start k → k < 160 →
      (k < 16 → s.linkPins = (false, l.word.getLsbD 31, false))
      ∧ (∀ i, i < 32 → k = 16 + 4 * i ∨ k = 17 + 4 * i → s.linkPins = (true, l.word.getLsbD (31 - i), false))
      ∧ (∀ i, i < 32 → k = 18 + 4 * i ∨ k = 19 + 4 * i → s.linkPins.1 = false ∧ s.linkPins.2.2 = false)
      ∧ (144 ≤ k → s.linkPins = (false, false, decide (k < 152)))

/-- O33. LOAD_BEGIN: with no load in flight and LT counting, the ACTIVE window's owed load begins, or, with no window
ACTIVE, the next window's once its load point is reached; the word takes the settings and the sequence as they stand,
and the sequence advances modulo 16 (R89, R90). LOAD_COMPLETE: 160 ticks after it began a load completes; last loaded
names its profile and written since load is clear but for a write while in flight, or last loaded is none where its owner
was port reset; the window it serves is READY, and where its line rose before the completion it has its late-load
flag, also where the part that rose has been cut since; no other record changes (R88, R89, R91, R92). A load knows that
rise from its beginning where the window is ACTIVE then. That written since load is clear after the load of a reset owner is
notes/assumptions/27, and the flag of a part already cut notes/assumptions/36. -/
def Obligations.LoadBeginsAndCompletes : Prop :=
  (∀ (s : State) (h : Nat) (r : Record), s.wc.load = none → s.counting = true →
     (s.active? = some (h, r) ∧ s.wc.activeLoad = .owed)
       ∨ (s.active? = none ∧ s.record? h = some r ∧ ∃ nx, s.wc.next = some nx ∧ nx.handle = h ∧ nx.load = .owed
           ∧ s.reached (less nx.rise 2400) = true) →
     ∃ t l, exec .loadBegin s = .next t ∧ t.wc.load = some l ∧ l.owner = r.owner ∧ l.profile = r.occ.profile
       ∧ l.word = linkWord s.wc.sequence r.owner (s.profile r.owner r.occ.profile) ∧ l.start = s.tb.lt
       ∧ l.orphaned = false ∧ l.rewritten = false
       ∧ l.rise = (if r.occ.state = .active then some r.occ.placed else none)
       ∧ (r.occ.state.inTimeline = true → l.serves = some (h, r.occ.k))
       ∧ t.wc = { s.wc with load := some l, sequence := (s.wc.sequence + 1) % 16, next := t.wc.next }
       ∧ s.sleepSettled t ∧ s.sameExcept t [.wc, .sc])
  ∧ (∀ (s : State) (l : Load), s.wc.load = some l → s.counting = true → s.reached (plus l.start 160) = true →
     ∃ t, exec .loadComplete s = .next t
       ∧ t.wc = { s.wc with
           load := none, next := t.wc.next, activeLoad := t.wc.activeLoad
           lastLoaded := if l.orphaned then none else some (l.owner, l.profile)
           writtenSince := !l.orphaned && l.rewritten }
       ∧ (∀ h k r, l.serves = some (h, k) → s.record? h = some r → r.occ.k = k →
           (r.occ.state = .active → t.wc.activeLoad = .ready)
           ∧ (∀ nx, s.nextUp? = some (h, r) → s.wc.next = some nx → nx.handle = h → nx.k = k →
               ∃ ny, t.wc.next = some ny ∧ ny.handle = h ∧ ny.load = .ready))
       ∧ (∀ h, t.record? h = (s.record? h).map (fun r =>
           let late := l.serves == some (h, r.occ.k) && l.rise.any (fun x => before x (plus l.start 160))
           { r with occ := { r.occ with lateLoad := r.occ.lateLoad || late } }))
       ∧ s.sleepSettled t ∧ s.sameExcept t [.rt, .wc, .sc])

/-- O34. WINDOW_SOON: once a window's notice instant is reached, its owner is told the distance to the placed start
divided by 8, with bit 0 for a remainder, which has been suspended before, and the notice is spent (R97). That it is told so
where the window has risen already is notes/assumptions/48. Where the placed start already lies behind LT
the detail is open, and a free value is taken (notes/assumptions/12). -/
def Obligations.WindowSoonAnnouncesTheWindow : Prop :=
  ∀ (s : State) (h : Nat) (r : Record) (ni : LocalTime), s.record? h = some r → r.occ.notice = some ni →
    r.occ.state.inTimeline = true → s.counting = true → s.reached ni = true →
    ∃ t d, exec (.windowSoon h) s = .next t
      ∧ t.record? h = some { r with occ := { r.occ with notice := none } }
      ∧ (∀ k, k ≠ h → t.record? k = s.record? k)
      ∧ t.port r.owner.port = (s.port r.owner.port).push
          ⟨.windowSoon, h, .none, flagBits [decide (0 < r.occ.suspensions)], d, s.tb.lt⟩
      ∧ (atOrBefore s.tb.lt r.occ.placed = true → d = sat16 (ticksTo s.tb.lt r.occ.placed / 8) ∧ t.free = s.free)
      ∧ (atOrBefore s.tb.lt r.occ.placed = false → t.free = s.free + 1)
      ∧ s.replannedExcept t [.rt, .free, .port r.owner.port]

/-- O35. ACTIVATION: with no window ACTIVE and LT counting, the next window becomes ACTIVE at its planned rise; the line
of its direction rises and the other is low, W_pending is spent, an early rise widens it with its end unmoved, a
remainder posts RESUMED, and step 0 makes its exchange RUNNING (R93, R98, R99, R126). A load in flight that serves the
window notes the rise, unless it has noted one before (notes/assumptions/36); a notice not yet posted stays
(notes/assumptions/48). -/
def Obligations.ActivationRaisesOneLine : Prop :=
  ∀ (s : State) (nx : NextWindow) (r : Record), s.active? = none → s.wc.next = some nx → s.counting = true →
    s.reached nx.rise = true → s.record? nx.handle = some r →
    let widening := if before nx.rise r.occ.placed then ticksTo nx.rise r.occ.placed else 0
    ∃ t, exec .activation s = .next t
      ∧ t.record? nx.handle = some
          { r with occ := { r.occ with
              state := .active, placed := less r.occ.placed widening, remaining := r.occ.remaining + widening
              widened := r.occ.widened || decide (0 < widening), cutAt := none
              firstRise := some (r.occ.firstRise.getD (less r.occ.placed widening)) } }
      ∧ (∀ k, k ≠ nx.handle → t.record? k = s.record? k)
      ∧ t.wc = { s.wc with
          rxEn := !r.kind.isTx, txEn := r.kind.isTx, pendingWidening := 0, activeLoad := nx.load
          next := t.wc.next, load := t.wc.load }
      ∧ t.wc.load.map (fun l => { l with serves := none }) = s.wc.load.map (fun l => { l with
          serves := none
          rise := if l.serves = some (nx.handle, r.occ.k) then some (l.rise.getD (less r.occ.placed widening)) else l.rise })
      ∧ t.port r.owner.port = (if r.occ.state = .suspended then
          (s.port r.owner.port).push ⟨.resumed, nx.handle, .none, flagBits [false, false, r.occ.shortfall],
            low16 r.occ.suspensions, s.tb.lt⟩
          else s.port r.owner.port)
      ∧ (∀ j, t.exchange? j = (s.exchange? j).map (fun e =>
          if r.link = some (.exchange j) ∧ e.steps.head?.bind (·.handle) = some nx.handle then
            { e with state := .running } else e))
      ∧ t.su.calls = s.su.calls ∧ s.sleepSettled t ∧ s.sameExcept t [.rt, .wc, .su, .sc, .port r.owner.port]

/-- O36. END WINDOW and PART_END of a record's last window, without a session, here the only one of the timeline: the
line drops, last end is recorded, WINDOW_END carries the ticks served over all parts divided by 16, and then the record
ends with RECORD_ENDED, its served counter one higher. END WINDOW falls at LT with the early flag and answers the ticks;
PART_END falls at the end of the part (R94, R95, R96, R41, R50). The width of the ticks in the response is
notes/assumptions/8. -/
def Obligations.LastWindowEndsTheRecord : Prop :=
  ∀ (s : State) (o : Owner) (h : Nat) (r : Record), s.timeline = [(h, r)] → r.occ.state = .active → r.owner = o →
    r.link = none → r.remaining = some 0 →
    let ended := fun (t : State) (at' : LocalTime) => t.record? h = none
      ∧ (∀ k, k ≠ h → t.record? k = s.record? k)
      ∧ (∀ j, t.cell? j = (s.cell? j).map (fun c =>
          if r.binding = .byIndex j then { c with refCount := c.refCount - 1 } else c))
      ∧ t.ct.triggers = s.ct.triggers
      ∧ t.wc = { s.wc with rxEn := false, txEn := false, lastEnd := some at', next := none, load := t.wc.load }
      ∧ s.sleepSettled t ∧ s.sameExcept t [.ct, .rt, .wc, .sc, .port o.port]
    let told := fun (early : Bool) (at' : LocalTime) =>
      ((s.port o.port).push ⟨.windowEnd, h, .done, windowEndFlags early false false r.occ,
        sat16 ((r.occ.served + ticksTo r.occ.placed at') / 16), s.tb.lt⟩).push
        ⟨.recordEnded, h, .exhausted, 0, low16 (min (r.served + 1) 65535), s.tb.lt⟩
    (∀ n, s.executes o.port n (.endWindow o.port h) →
      ∃ t, exec (.endWindow o.port h) s = .next t ∧ ended t s.tb.lt
        ∧ t.port o.port = (told true s.tb.lt).answered n .ok
            (bytesOfNat 3 (r.occ.served + ticksTo r.occ.placed s.tb.lt)))
    ∧ (r.occ.cutAt = none → s.counting = true → s.reached (plus r.occ.placed r.occ.remaining) = true →
        ∃ t, exec .partEnd s = .next t ∧ ended t (plus r.occ.placed r.occ.remaining)
          ∧ t.port o.port = told false (plus r.occ.placed r.occ.remaining))

/-- O37. PART_END of a periodic record without a session, here the only window of the timeline: the served counter rises
and the next index is generated with the nominal start just served as its reference and the record's standing values
(R41, R46, R47, R52). Taken, far enough ahead and in conflict with nothing, it is GRANTED at its nominal start, and
remaining falls by one unless unlimited (R71). Taken but too near, it is lost, and the next one is generated from it; MISSED
LATE tells of it before the grant (R48). On an entry without an anchor, or out of reach, it stands WAITING, its bit of the
mask kept, and MISSED UNTIMED says so with the waiting flag and nothing counted (R49). -/
def Obligations.PartEndGeneratesTheNextOccurrence : Prop :=
  ∀ (s : State) (o : Owner) (h period on adv : Nat) (r : Record) (nominal lt : LocalTime),
    s.timeline = [(h, r)] → r.occ.state = .active → r.owner = o → r.link = none → r.remaining ≠ some 0 →
    r.period = some period → r.occ.cutAt = none → s.counting = true →
    s.reached (plus r.occ.placed r.occ.remaining) = true → r.occ.nominal = some nominal → s.wc.pendingWidening = 0 →
    let k := (r.occ.k + 1) % 65536
    let next := (k + 1) % 65536
    let resolve := fun (i entry : Nat) (ref : LocalTime) (earlier : Nat) =>
      s.resolveFor o r.binding entry { r.start with frame := (r.start.frame + i * period) % 2048 } ref r.kind.isTx earlier
    let soon := fun (x : LocalTime) => before s.tb.lt (less x s.sc.params.lead) = true
    let current := fun (i : Nat) (state : OccState) (entry : Nat) (start : Option LocalTime) (advance : Nat) =>
      ({ k := i, state := state, entry := entry, nominal := start, advance := advance, placed := start.getD 0, shift := 0
         remaining := r.length, served := 0, suspensions := 0, level := r.level, slack := r.slack
         profile := r.profile, resumable := r.resumable, taken := r.mask.getLsbD (i % 16), firstRise := none
         cutAt := none, shortfall := false, resumeFloor := none, deadline := none, lateLoad := false, widened := false
         notice := start.map (fun x => less x s.sc.params.lead) } : Occurrence)
    let windowEnd : Event := ⟨.windowEnd, h, .done, windowEndFlags false false false r.occ,
      sat16 ((r.occ.served + ticksTo r.occ.placed (plus r.occ.placed r.occ.remaining)) / 16), s.tb.lt⟩
    let becomes := fun (q : Record) (port : PortState) => ∃ t, exec .partEnd s = .next t
      ∧ t.record? h = some { q with served := min (r.served + 1) 65535 }
      ∧ (∀ j, j ≠ h → t.record? j = s.record? j)
      ∧ t.wc = { s.wc with
          rxEn := false, txEn := false, lastEnd := some (plus r.occ.placed r.occ.remaining), next := t.wc.next
          load := t.wc.load }
      ∧ t.port o.port = port ∧ s.sleepSettled t ∧ s.sameExcept t [.rt, .wc, .sc, .port o.port]
    (r.mask.getLsbD (k % 16) = true → resolve k (s.generationEntry r) nominal r.occ.advance = .found on lt adv →
      s.farEnough lt = true → soon lt →
      becomes { r with remaining := r.remaining.map (· - 1), occ := current k .granted on (some lt) adv }
        ((s.port o.port).push windowEnd))
    ∧ (∀ (on' adv' : Nat) (lt' : LocalTime), r.remaining ≠ some 1 → r.mask.getLsbD (k % 16) = true →
        resolve k (s.generationEntry r) nominal r.occ.advance = .found on lt adv → s.farEnough lt = false →
        r.mask.getLsbD (next % 16) = true →
        resolve next (match r.binding with
          | .byIndex i => i
          | .followsServing => (s.serving? o).getD on) lt adv = .found on' lt' adv' →
        s.farEnough lt' = true → soon lt' →
        becomes
          { r with
            remaining := r.remaining.map (· - 2), lost := min (r.lost + 1) 65535
            occ := current next .granted on' (some lt') adv' }
          (((s.port o.port).push windowEnd).push ⟨.missed, h, .late, 0, 1, s.tb.lt⟩))
    ∧ (resolve k (s.generationEntry r) nominal r.occ.advance = .untimed on →
        becomes { r with remaining := r.remaining.map (· - 1), occ := current k .waiting on none 0 }
          (((s.port o.port).push windowEnd).push ⟨.missed, h, .untimed, flagBits [true], 0, s.tb.lt⟩))

/-- O38. CUT_TIME on the ACTIVE window, here the only one of the timeline: the line drops and the part's ticks move from
remaining to served. A window that is not resumable or was suspended three times ends CUT, and with it a record with
nothing remaining; otherwise its remainder stands SUSPENDED at the later of the cut and the floor stored at the cut,
if that is not after the latest start, and SUSPENDED is posted (R79, R80, R95, R50). -/
def Obligations.CutTimeSuspendsOrEnds : Prop :=
  ∀ (s : State) (o : Owner) (h : Nat) (r : Record) (c : LocalTime), s.timeline = [(h, r)] →
    r.occ.state = .active → r.owner = o → r.occ.cutAt = some c → s.counting = true → s.reached c = true →
    ticksTo r.occ.placed c < r.occ.remaining →
    let served := r.occ.served + ticksTo r.occ.placed c
    let left := r.occ.remaining - ticksTo r.occ.placed c
    let start := laterOf c (r.occ.resumeFloor.getD c)
    (r.occ.resumable = false ∨ 3 ≤ r.occ.suspensions → r.link = none → r.remaining = some 0 →
      ∃ t, exec .cutTime s = .next t ∧ t.record? h = none ∧ (∀ k, k ≠ h → t.record? k = s.record? k)
        ∧ (∀ j, t.cell? j = (s.cell? j).map (fun y =>
            if r.binding = .byIndex j then { y with refCount := y.refCount - 1 } else y))
        ∧ t.ct.triggers = s.ct.triggers
        ∧ t.wc = { s.wc with rxEn := false, txEn := false, lastEnd := some c, next := none, load := t.wc.load }
        ∧ t.port o.port = ((s.port o.port).push ⟨.windowEnd, h, .cut, windowEndFlags false true false r.occ,
            sat16 (served / 16), s.tb.lt⟩).push ⟨.recordEnded, h, .exhausted, 0, low16 r.served, s.tb.lt⟩
        ∧ s.sleepSettled t ∧ s.sameExcept t [.ct, .rt, .wc, .sc, .port o.port])
    ∧ (r.occ.resumable = true → r.occ.suspensions < 3 → before (less (r.occ.deadline.getD c) left) start = false →
        before s.tb.lt (less start s.sc.params.lead) = true → before s.tb.lt start = true →
        s.wc.pendingWidening = 0 →
        ∃ t, exec .cutTime s = .next t
          ∧ t.record? h = some
              { r with occ := { r.occ with
                  state := .suspended, placed := start, served := served, remaining := left
                  suspensions := r.occ.suspensions + 1, cutAt := none
                  notice := some (less start s.sc.params.lead) } }
          ∧ (∀ k, k ≠ h → t.record? k = s.record? k)
          ∧ t.wc = { s.wc with
              rxEn := false, txEn := false, lastEnd := some c, next := t.wc.next, load := t.wc.load }
          ∧ t.port o.port = (s.port o.port).push ⟨.suspended, h, .none, flagBits [false, false, r.occ.shortfall],
              low16 (r.occ.suspensions + 1), s.tb.lt⟩
          ∧ s.sleepSettled t ∧ s.sameExcept t [.rt, .wc, .sc, .port o.port])

/-! ### Calls -/

/-- O39. An admitted CALL START whose bursts conflict with nothing makes the session RUNNING with the parameters and K as
selected, admits the CALL_RX record on the lowest free handle and the CALL_TX record on the next, and grants both at
their nominal starts; the response carries handles, outcomes, starts, resolving entries and K (R102 to R105, R71). The
statement takes starts far enough ahead that no notice is due yet. The codes of the outcomes are notes/assumptions/8. -/
def Obligations.CallStartGrantsBothBursts : Prop :=
  ∀ (s : State) (o : Owner) (n sv rxH txH rxE rxA txE txA : Nat) (a : CallParams) (rxLt txLt : LocalTime),
    s.executes o.port n (.callStart o.port a) → a.rxStart.valid = true →
    1200 ≤ a.rxLength → a.rxLength ≤ 480000 → 1200 ≤ a.txLength → a.txLength ≤ 480000 → a.txDelay ≤ 144000 →
    1 ≤ a.period → a.period ≤ 8 → a.level ≤ 15 → a.allowance ≤ 8 → a.threshold ≤ 32 → a.rxProfile ≤ 15 →
    a.txProfile ≤ 15 → a.rxLength ≤ a.txDelay → a.txDelay + a.txLength ≤ 144000 * a.period →
    s.serving? o = some sv → s.timed sv = true → s.call? o = none → s.recordsOf o < 39 → s.recordList.length < 63 →
    rxH < txH → txH < 64 → s.record? rxH = none → s.record? txH = none →
    (∀ k, k < txH → k ≠ rxH → s.record? k ≠ none) →
    s.resolveFor o .followsServing sv a.rxStart s.tb.lt false 0 = .found rxE rxLt rxA →
    s.resolveFor o .followsServing sv (a.rxStart.add a.txDelay) (less rxLt 1) true 0 = .found txE txLt txA →
    s.farEnough rxLt = true → s.farEnough txLt = true →
    s.clearAt o a.rxProfile rxLt a.rxLength → s.clearAt o a.txProfile txLt a.txLength →
    (let g := if a.rxProfile = a.txProfile then 0 else s.arb.guard
     (before txLt (plus (plus rxLt a.rxLength) g) && before rxLt (plus txLt (a.txLength + g))) = false) →
    before s.tb.lt (less rxLt s.sc.params.lead) = true → before s.tb.lt (less txLt s.sc.params.lead) = true →
    let threshold := if a.threshold = 0 then 8 else a.threshold
    let burst := fun (kind : Kind) (start : CellTime) (length profile on : Nat) (lt : LocalTime) (adv : Nat) =>
      ({ owner := o, kind := kind, binding := .followsServing, start := start, length := length, level := a.level
         period := some a.period, count := none, remaining := none, mask := 65535, slack := 0, resumable := false
         profile := profile, link := some .call, served := 0, lost := 0
         occ :=
          { k := 0, state := .granted, entry := on, nominal := some lt, advance := adv, placed := lt, shift := 0
            remaining := length, served := 0, suspensions := 0, level := a.level, slack := 0, profile := profile
            resumable := false, taken := true, firstRise := none, cutAt := none, shortfall := false
            resumeFloor := none, deadline := none, lateLoad := false, widened := false
            notice := some (less lt s.sc.params.lead) } } : Record)
    ∃ t, exec (.callStart o.port a) s = .next t
      ∧ t.call? o = some ⟨.running, { a with threshold := threshold }, some rxH, some txH, [], none, 0, 0, 0⟩
      ∧ t.call? o.other = s.call? o.other ∧ t.su.exchanges = s.su.exchanges
      ∧ t.record? rxH = some (burst .callRx a.rxStart a.rxLength a.rxProfile rxE rxLt rxA)
      ∧ t.record? txH = some (burst .callTx (a.rxStart.add a.txDelay) a.txLength a.txProfile txE txLt txA)
      ∧ (∀ k, k ≠ rxH → k ≠ txH → t.record? k = s.record? k)
      ∧ t.port o.port = (s.port o.port).answered n .ok
          (bytesOfNat 1 rxH ++ bytesOfNat 1 txH ++ ([0] ++ bytesOfNat 6 rxLt.toNat ++ bytesOfNat 1 rxE)
            ++ ([0] ++ bytesOfNat 6 txLt.toNat ++ bytesOfNat 1 txE) ++ bytesOfNat 1 threshold)
      ∧ s.replannedExcept t [.rt, .su, .port o.port]

/-- O40. CALL END with no burst ACTIVE ends both records without counting and makes the session NONE. With one burst
ACTIVE that record runs on as its last, the other ends CANCELLED, and the session is ENDING; a receive record that ends
moves the reference period forward to its index. No event is posted; the response carries the state, the period and the
counters (R101, R107, R112). The code of the state in the response is notes/assumptions/8. -/
def Obligations.CallEndEndsTheBursts : Prop :=
  ∀ (s : State) (o : Owner) (n x y : Nat) (c : Call) (rx tx : Record), s.executes o.port n (.callEnd o.port) →
    s.call? o = some c → c.state = .running → c.rxHandle = some x → c.txHandle = some y → x ≠ y →
    s.record? x = some rx → s.record? y = some tx → rx.owner = o → tx.owner = o → rx.kind = .callRx →
    tx.kind = .callTx → rx.link = some .call → tx.link = some .call → rx.binding = .followsServing →
    tx.binding = .followsServing → ¬(rx.occ.state = .active ∧ tx.occ.state = .active) →
    let counters := bytesOfNat 2 rx.occ.k ++ (bytesOfNat 2 rx.served ++ bytesOfNat 2 rx.lost)
      ++ (bytesOfNat 2 tx.served ++ bytesOfNat 2 tx.lost) ++ bytesOfNat 2 c.granted ++ bytesOfNat 2 c.refused
    let reference := match c.reference with
      | none => rx.occ.k
      | some p =>
          let ahead := (rx.occ.k + 65536 - p % 65536) % 65536
          if 1 ≤ ahead ∧ ahead ≤ 32767 then rx.occ.k else p
    ∃ t, exec (.callEnd o.port) s = .next t
      ∧ (∀ k, k ≠ x → k ≠ y → t.record? k = s.record? k)
      ∧ t.call? o.other = s.call? o.other ∧ t.su.exchanges = s.su.exchanges
      ∧ (rx.occ.state ≠ .active → tx.occ.state ≠ .active → t.record? x = none ∧ t.record? y = none ∧ t.call? o = none
          ∧ t.port o.port = (s.port o.port).answered n .ok ([0] ++ counters))
      ∧ (rx.occ.state = .active → t.record? x = some { rx with remaining := some 0 } ∧ t.record? y = none
          ∧ t.call? o = some { c with state := .ending, txHandle := none }
          ∧ t.port o.port = (s.port o.port).answered n .ok ([2] ++ counters))
      ∧ (tx.occ.state = .active → t.record? x = none ∧ t.record? y = some { tx with remaining := some 0 }
          ∧ t.call? o = some { c with state := .ending, rxHandle := none, reference := some reference }
          ∧ t.port o.port = (s.port o.port).answered n .ok ([2] ++ counters))
      ∧ s.replannedExcept t [.rt, .su, .port o.port]

/-- O41. SU's answer to a yield request follows its seven steps: h moves to the lowest period named if that is later;
entries 32 or more periods before h leave the list; the yield is granted where every named period is listed, or where
none of the others lies before h and the list stays within the allowance Y, and then they join the list; one counter
rises. A list within Y stays within Y (R106, R107, R108). -/
def Obligations.YieldsStayWithinTheAllowance : Prop :=
  ∀ (s : State) (o : Owner) (c : Call) (lowest : Nat) (others : List Nat), s.call? o = some c →
    let ahead := fun (a b : Nat) => (b + 65536 - a % 65536) % 65536
    let h := match c.reference with
      | none => lowest
      | some x => if 1 ≤ ahead x lowest ∧ ahead x lowest ≤ 32767 then lowest else x
    let kept := c.yields.filter (fun p => !(decide (32 ≤ ahead p h) && decide (ahead p h ≤ 32767)))
    let named := (lowest :: others).filter (fun p => !kept.contains p)
    let granted := named = [] ∨ (∀ p ∈ named, ¬(1 ≤ ahead p h ∧ ahead p h ≤ 32767))
      ∧ kept.length + named.length ≤ c.params.allowance
    let answer := s.answerYield o (lowest :: others)
    (answer.2 = true ↔ granted)
      ∧ ∃ d, answer.1.call? o = some d
        ∧ d = { c with reference := some h, yields := d.yields, granted := d.granted, refused := d.refused }
        ∧ (granted → d.yields = kept ++ named ∧ d.granted = min (c.granted + 1) 65535 ∧ d.refused = c.refused)
        ∧ (¬granted → d.yields = kept ∧ d.refused = min (c.refused + 1) 65535 ∧ d.granted = c.granted)
        ∧ (c.yields.length ≤ c.params.allowance → d.yields.length ≤ d.params.allowance)
        ∧ answer.1.call? o.other = s.call? o.other ∧ s.sameExcept answer.1 [.su]

/-- O42. SU takes an ending. A receive ending of a RUNNING call: DONE sets the degradation counter to 0, YIELDED and
CANCELLED leave it, any other raises it to at most K; the rise to K posts CALL_DEGRADED to the owner and to POLICY, with the
period and the owner's bit. The reference period moves to the ending's index where there was none or that index lies after
it. A transmit ending changes nothing (R107, R110, R111). A step's ending: the last step DONE ends the exchange with
EXCH_DONE; an earlier one DONE adds to the steps done and, unless a cancel is pending, leaves the rest waiting; any other
ending, or a pending cancel, abandons it: the records of its other steps end, here none of them ACTIVE, the exchange is
free, and EXCH_ABANDONED names the step that failed, or for the cancel the lowest step not ended DONE, the reason and the
steps done, unless the submission's own response speaks for it (R126, R127, R128, R131). That the last step DONE completes the
exchange, and that R128 names the failing step, also where steps end out of order is notes/assumptions/49. -/
def Obligations.SessionsTakeEndings : Prop :=
  (∀ (s : State) (h k : Nat) (r : Record) (e : Ending) (c : Call), s.call? r.owner = some c → c.state = .running →
     let t := s.informCall h r k e
     (r.kind ≠ .callRx → t = s)
     ∧ (r.kind = .callRx →
         let fails := e ≠ .done ∧ e ≠ .yielded ∧ e ≠ .cancelled
         let after := if e = .done then 0
           else if e = .yielded ∨ e = .cancelled then c.degradation else min (c.degradation + 1) c.params.threshold
         let reference := match c.reference with
           | none => k
           | some p =>
               let ahead := (k + 65536 - p % 65536) % 65536
               if 1 ≤ ahead ∧ ahead ≤ 32767 then k else p
         t.call? r.owner = some { c with reference := some reference, degradation := after }
         ∧ t.call? r.owner.other = s.call? r.owner.other
         ∧ (∀ reason, (∀ b, e = .denied b → reason = .denied) → ((∀ b, e ≠ .denied b) → reason = e.reason) →
             fails → c.degradation < after → after = c.params.threshold →
             let event : Event := ⟨.callDegraded, h, reason, flagBits [r.owner == .b], low16 k, s.tb.lt⟩
             t.port r.owner.port = (s.port r.owner.port).push event ∧ t.port .policy = (s.port .policy).push event)
         ∧ (¬(c.degradation < after ∧ after = c.params.threshold) → t.pi = s.pi)
         ∧ s.sameExcept t [.su, .port r.owner.port, .port .policy]))
  ∧ ∀ (w : Work) (i h j : Nat) (e : Ending) (x : Exchange), w.st.exchange? i = some x →
    (x.steps[j]?).map (·.handle) = some (some h) → (∀ m, m < j → (x.steps[m]?).map (·.handle) ≠ some (some h)) →
    let t := (w.informExchange i h e).st
    let live := fun (g : Nat) => g ≠ h ∧ ∃ y ∈ x.steps, y.handle = some g
    (∀ g q, live g → w.st.record? g = some q → q.link = some (.exchange i) ∧ q.binding = .followsServing) →
    let goesOn := e = .done ∧ j + 1 ≠ x.steps.length ∧ x.cancelPending = false
    let completes := e = .done ∧ j + 1 = x.steps.length
    (∀ k, k ≠ i → t.exchange? k = w.st.exchange? k) ∧ t.su.calls = w.st.su.calls
    ∧ (goesOn → t.exchange? i = some
          { x with done := x.done + 1, steps := x.steps.modify j (fun y => { y with ending := some .done }) }
        ∧ w.st.sameExcept t [.su])
    ∧ (completes → t.exchange? i = none
        ∧ t.port x.owner.port = (w.st.port x.owner.port).push
            ⟨.exchDone, i, .none, flagBits [x.cancelPending], low16 x.steps.length, w.st.tb.lt⟩
        ∧ w.st.sameExcept t [.su, .port x.owner.port])
    ∧ (¬goesOn → ¬completes →
        (∀ g q, live g → w.st.record? g = some q → q.occ.state ≠ .active) →
        t.exchange? i = none ∧ (∀ g, live g → t.record? g = none) ∧ (∀ g, ¬live g → t.record? g = w.st.record? g)
        ∧ (let told := fun (failing done : Nat) (reason : Reason) => t.port x.owner.port =
             if w.submitting = some i then w.st.port x.owner.port
             else (w.st.port x.owner.port).push ⟨.exchAbandoned, i, reason, flagBits [x.cancelPending, false],
               low16 (failing + 256 * done), w.st.tb.lt⟩
           let after := x.steps.modify j (fun y => { y with ending := some .done })
           (e = .done → ∀ f y, after[f]? = some y → y.ending ≠ some .done →
             (∀ m z, m < f → after[m]? = some z → z.ending = some .done) → told f (x.done + 1) .cancelled)
           ∧ (e ≠ .done → told j x.done e.reason))
        ∧ w.st.sameExcept t [.rt, .su, .port x.owner.port])

/-! ### Exchanges -/

/-- O43. An EXCHANGE SUBMIT of one step whose first candidate resolves far enough ahead and conflicts with nothing takes
the lowest free exchange record and the lowest free handle; the exchange is PLACED, the step GRANTED, and the response
carries index, outcome, candidates examined, candidate, start, entry and step (R120 to R125). The statement takes a start
far enough ahead that no notice is due yet, with no handover pending. The codes of the state and of the step's outcome are
notes/assumptions/8. -/
def Obligations.ExchangeSubmitPlacesTheStep : Prop :=
  ∀ (s : State) (o : Owner) (n sv i h adv x0adv : Nat) (a : ExchangeParams) (x : StepParams) (x0 lt : LocalTime),
    s.executes o.port n (.exchangeSubmit o.port a) → a.count = 1 → a.steps = [x] → a.earliest.valid = true →
    a.latest.valid = true → a.level ≤ 15 → x.direction ≤ 1 → x.offset ≤ 4000000 → 1200 ≤ x.length →
    x.length ≤ 480000 → x.profile ≤ 15 →
    (a.latest.inCycle + 294912000 - a.earliest.inCycle) % 294912000 ≤ 3060000 →
    s.serving? o = some sv → s.timed sv = true → s.handover? o = none →
    s.exchangesOf o < 3 → i < 4 → s.exchange? i = none → (∀ k, k < i → s.exchange? k ≠ none) →
    s.recordsOf o < 40 → s.recordList.length < 64 → h < 64 → s.record? h = none → (∀ k, k < h → s.record? k ≠ none) →
    s.resolveOn sv a.earliest s.tb.lt false 0 = .found x0 x0adv →
    s.resolveOn sv ((a.earliest.add 0).add x.offset) (less x0 1) (x.direction == 1) 0 = .found lt adv →
    s.farEnough lt = true → s.clearAt o x.profile lt x.length →
    before s.tb.lt (less lt s.sc.params.lead) = true →
    ∃ t, exec (.exchangeSubmit o.port a) s = .next t
      ∧ t.exchange? i = some
          { owner := o, state := .placed, earliest := a.earliest, latest := a.latest, level := a.level
            steps := [⟨x.direction == 1, x.offset, x.length, x.profile, some h, none⟩], candidate := 0, entry := sv
            done := 0, cancelPending := false }
      ∧ (∀ k, k ≠ i → t.exchange? k = s.exchange? k) ∧ t.su.calls = s.su.calls
      ∧ t.record? h = some
          { owner := o, kind := if x.direction = 1 then .stepTx else .stepRx, binding := .followsServing
            start := (a.earliest.add 0).add x.offset, length := x.length, level := a.level, period := none
            count := some 1, remaining := some 0, mask := 65535, slack := 0, resumable := false, profile := x.profile
            link := some (.exchange i), served := 0, lost := 0
            occ :=
              { k := 0, state := .granted, entry := sv, nominal := some lt, advance := adv, placed := lt, shift := 0
                remaining := x.length, served := 0, suspensions := 0, level := a.level, slack := 0, profile := x.profile
                resumable := false, taken := true, firstRise := none, cutAt := none, shortfall := false
                resumeFloor := none, deadline := none, lateLoad := false, widened := false
                notice := some (less lt s.sc.params.lead) } }
      ∧ (∀ k, k ≠ h → t.record? k = s.record? k)
      ∧ t.port o.port = (s.port o.port).answered n .ok
          (bytesOfNat 1 i ++ [0] ++ bytesOfNat 2 1 ++ [0] ++ bytesOfTime (a.earliest.add 0) ++ bytesOfNat 1 sv
            ++ (bytesOfNat 1 h ++ [0] ++ bytesOfNat 6 lt.toNat))
      ∧ s.replannedExcept t [.rt, .su, .port o.port]

/-- O44. The placement search tests its candidates in ascending order and chooses the first usable one: each candidate
before it resolved to no usable placement, and none of them was untimed (R122, R123). That the i-th step is tried under
the i-th free handle is the model's choice (notes/assumptions/18). -/
def Obligations.SearchChoosesTheFirstUsableCandidate : Prop :=
  ∀ (s : State) (o : Owner) (sv : Nat) (a : ExchangeParams) (ref : LocalTime) (left first j entry : Nat)
    (ps : List PlacedStep),
    s.searchCandidates o sv a ref left first = .chosen j entry ps →
    first ≤ j ∧ j < first + left
      ∧ s.resolveCandidate o sv (a.earliest.add (j * 12000)) ref a.steps = .on entry ps
      ∧ (∀ x ∈ ps, s.farEnough x.lt = true) ∧ s.stepsInOrder ps = true
      ∧ (∀ y ∈ ps.zip (freeIndexes s.rt.records), s.stepTrial o a.level y = true)
      ∧ ∀ i, first ≤ i → i < j →
          s.resolveCandidate o sv (a.earliest.add (i * 12000)) ref a.steps = .unusable
            ∨ ∃ e qs, s.resolveCandidate o sv (a.earliest.add (i * 12000)) ref a.steps = .on e qs
                ∧ s.stepsUsable o a.level qs = false

/-- O45. EXCHANGE CANCEL of an exchange with no step ACTIVE frees it and every record of its steps, without an event, and
answers ABANDONED and the steps done; with a step ACTIVE it only sets cancel pending and answers so (R130, R127). The byte
0 for abandoned at once and 1 for pending is notes/assumptions/8. -/
def Obligations.ExchangeCancelAbandonsOrWaits : Prop :=
  ∀ (s : State) (o : Owner) (n i : Nat) (x : Exchange), s.executes o.port n (.exchangeCancel o.port i) →
    s.exchange? i = some x → x.owner = o → x.cancelPending = false →
    let live := fun (h : Nat) => ∃ y ∈ x.steps, y.handle = some h
    (∀ h r, live h → s.record? h = some r → r.link = some (.exchange i) ∧ r.binding = .followsServing) →
    ((∀ h r, live h → s.record? h = some r → r.occ.state ≠ .active) →
      ∃ t, exec (.exchangeCancel o.port i) s = .next t ∧ t.exchange? i = none
        ∧ (∀ k, k ≠ i → t.exchange? k = s.exchange? k) ∧ t.su.calls = s.su.calls
        ∧ (∀ h, live h → t.record? h = none) ∧ (∀ h, ¬live h → t.record? h = s.record? h)
        ∧ t.port o.port = (s.port o.port).answered n .ok ([0] ++ bytesOfNat 1 x.done)
        ∧ s.replannedExcept t [.rt, .su, .port o.port])
    ∧ ((∃ h r, live h ∧ s.record? h = some r ∧ r.occ.state = .active) →
        ∃ t, exec (.exchangeCancel o.port i) s = .next t
          ∧ t.exchange? i = some { x with cancelPending := true }
          ∧ (∀ k, k ≠ i → t.exchange? k = s.exchange? k) ∧ t.su.calls = s.su.calls
          ∧ t.port o.port = (s.port o.port).answered n .ok ([1] ++ bytesOfNat 1 x.done)
          ∧ s.replannedExcept t [.su, .port o.port])

/-! ### Handover -/

/-- O46. HANDOVER and HANDOVER REVERT make the record PENDING: Ts is the switch time as it resolves on the SERVING entry
where that lies 24,000 ticks or more ahead, and else LT plus 24,000 with the clamped flag; a revert goes back to the
retiring entry, and only before the window closes (R137, R138, R139, R144, R151). Exchanges wholly before Ts stay. Without a
follows-serving record GRANTED on the source at or after Ts all counts are zero. One such record, resolved on the target at
or after Ts far enough ahead and in conflict with nothing, is GRANTED there with shift 0 and counts as moved; where the
target's result falls before Ts it is lost, counts as missed, and MISSED SWITCH is posted with detail 1: the last of its
record ends that with RECORD_ENDED, any other is followed by the next index, GRANTED on the target (R140, R141, R142). One
exchange that straddles Ts, none of its steps ACTIVE, is abandoned with its records and counted, EXCH_ABANDONED naming the
lowest step not DONE that ends after Ts (R143). The statement takes starts so far ahead that no notice is due yet. HANDOVER
CANCEL withdraws a PENDING record, of either kind, with three zero counts where nothing is GRANTED or WAITING on its target,
and is refused with NO_HO without a record (R147). -/
def Obligations.HandoverIsFixedOrWithdrawn : Prop :=
  (∀ (s : State) (o : Owner) (n source target adv : Nat) (time : CellTime) (lt : LocalTime) (cmd : Instr)
     (kind : HandoverKind), time.valid = true → s.executes o.port n cmd →
     s.serving? o = some source → s.handover? o = none → s.resolveOn source time s.tb.lt false 0 = .found lt adv →
     let clamped := decide (ticksTo s.tb.lt lt < 24000)
     let ts := if clamped then plus s.tb.lt 24000 else lt
     let asked := (kind = .handover ∧ cmd = .handover o.port target time
         ∧ ∃ c, s.cell? target = some c ∧ c.owner = o ∧ c.state = .neighbour ∧ c.anchor ≠ none)
       ∨ (kind = .revert ∧ cmd = .handoverRevert o.port time ∧ s.timed target = true
         ∧ ∃ v, s.revert? o = some v ∧ v.retiring = target ∧ before ts v.closeLt = true)
     let nominal := fun (y : Step) => (y.handle.bind s.record?).bind (·.occ.nominal)
     let endsAfter := fun (y : Step) => ∃ m, nominal y = some m ∧ before ts (plus m y.length) = true
     let endsBy := fun (x : Exchange) => ∃ y m, x.steps.getLast? = some y ∧ nominal y = some m
       ∧ atOrBefore (plus m y.length) ts = true
     let quiet := fun (x : Exchange) => x.owner = o → x.entry = source → endsBy x
     let member := fun (r : Record) => r.owner = o ∧ r.binding = .followsServing ∧ r.occ.state = .granted
       ∧ r.occ.entry = source ∧ before (r.occ.nominal.getD r.occ.placed) ts = false
     let accepted := fun (parts : List Block) (port : PortState) (counts : List Byte) (ok : State → Prop) =>
       ∃ t, exec cmd s = .next t ∧ t.handover? o = some ⟨kind, source, target, time, ts, clamped⟩
         ∧ t.handover? o.other = s.handover? o.other ∧ t.hu.windows = s.hu.windows ∧ ok t
         ∧ t.port o.port = port.answered n .ok (bytesOfNat 6 ts.toNat ++ [if clamped then 1 else 0] ++ counts)
         ∧ s.replannedExcept t (.hu :: .port o.port :: parts)
     asked →
     ((∀ i x, s.exchange? i = some x → quiet x) → (∀ h r, s.record? h = some r → ¬member r) →
       accepted [] (s.port o.port) ([0, 0, 0, 0, 0, 0] ++ [0]) (fun _ => True))
     ∧ (∀ (h advS advT : Nat) (r : Record) (ltS start : LocalTime), (∀ i x, s.exchange? i = some x → quiet x) →
         s.record? h = some r → member r → (∀ k q, k ≠ h → s.record? k = some q → ¬member q) →
         let at' := fun (i : Nat) => { r.start with frame := (r.start.frame + i * r.period.getD 0) % 2048 }
         let soon := fun (x : LocalTime) => s.farEnough x = true ∧ before s.tb.lt (less x s.sc.params.lead) = true
         let free := fun (profile len : Nat) (x : LocalTime) => ∀ k q, k ≠ h → s.record? k = some q →
           q.occ.state.inTimeline = true → s.conflicts o profile x len q = false
         let others := fun (t : State) => ∀ k, k ≠ h → t.record? k = s.record? k
         s.resolveOn source (at' r.occ.k) s.tb.lt r.kind.isTx 0 = .found ltS advS → before ltS ts = false →
         s.resolveOn target (at' r.occ.k) s.tb.lt r.kind.isTx 0 = .found start advT →
         (before start ts = false → soon start → free r.occ.profile r.occ.remaining start →
           accepted [.rt] (s.port o.port) ([0, 1, 0, 0, 0, 0] ++ [0]) (fun t => others t ∧ t.record? h = some
             { r with occ := { r.occ with
                 entry := target, nominal := some start, advance := advT, placed := start, shift := 0
                 notice := some (less start s.sc.params.lead) } }))
         ∧ (before start ts = true → r.link = none →
             let told := (s.port o.port).push ⟨.missed, h, .missedSwitch, 0, 1, s.tb.lt⟩
             (r.remaining = some 0 →
               accepted [.rt] (told.push ⟨.recordEnded, h, .exhausted, 0, low16 r.served, s.tb.lt⟩)
                 ([0, 0, 0, 1, 0, 0] ++ [0]) (fun t => others t ∧ t.record? h = none))
             ∧ (∀ (advS' advT' : Nat) (ltS' start' : LocalTime), r.remaining ≠ some 0 →
                 let k := (r.occ.k + 1) % 65536
                 r.mask.getLsbD (k % 16) = true →
                 s.resolveOn source (at' k) start r.kind.isTx advT = .found ltS' advS' → before ltS' ts = false →
                 s.resolveOn target (at' k) start r.kind.isTx advT = .found start' advT' → before start' ts = false →
                 soon start' → free r.profile r.length start' →
                 accepted [.rt] told ([0, 0, 0, 1, 0, 0] ++ [0]) (fun t => others t ∧ t.record? h = some
                   { r with
                     remaining := r.remaining.map (· - 1), lost := min (r.lost + 1) 65535
                     occ :=
                      { k := k, state := .granted, entry := target, nominal := some start', advance := advT'
                        placed := start', shift := 0, remaining := r.length, served := 0, suspensions := 0
                        level := r.level, slack := r.slack, profile := r.profile, resumable := r.resumable
                        taken := true, firstRise := none, cutAt := none, shortfall := false, resumeFloor := none
                        deadline := none, lateLoad := false, widened := false
                        notice := some (less start' s.sc.params.lead) } }))))
     ∧ (∀ (i j : Nat) (x : Exchange) (last y : Step), s.exchange? i = some x → x.owner = o → x.entry = source →
         (∀ k z, k ≠ i → s.exchange? k = some z → quiet z
           ∧ ∀ w ∈ z.steps, ∀ h, w.handle = some h → ∀ z' ∈ x.steps, z'.handle ≠ some h) →
         (∀ h r, s.record? h = some r → member r → ∃ z ∈ x.steps, z.handle = some h) →
         (∀ z ∈ x.steps, ∀ h, z.handle = some h → ∃ r, s.record? h = some r ∧ r.link = some (.exchange i)
           ∧ r.binding = .followsServing ∧ r.occ.state ≠ .active) →
         x.steps.getLast? = some last → endsAfter last →
         (∀ z m, x.steps.head? = some z → nominal z = some m → before m ts = true) →
         x.steps[j]? = some y → y.ending ≠ some .done → endsAfter y →
         (∀ k z, k < j → x.steps[k]? = some z → z.ending = some .done ∨ ¬endsAfter z) →
         accepted [.rt, .su]
           ((s.port o.port).push ⟨.exchAbandoned, i, .straddling, flagBits [x.cancelPending, false],
             low16 (j + 256 * x.done), s.tb.lt⟩)
           ([0, 0, 0, 0, 0, 0] ++ [1])
           (fun t => t.su.calls = s.su.calls ∧ t.exchange? i = none ∧ (∀ k, k ≠ i → t.exchange? k = s.exchange? k)
             ∧ (∀ z ∈ x.steps, ∀ h, z.handle = some h → t.record? h = none)
             ∧ (∀ h, (∀ z ∈ x.steps, z.handle ≠ some h) → t.record? h = s.record? h))))
  ∧ (∀ (s : State) (o : Owner) (n source adv : Nat) (time : CellTime) (lt : LocalTime) (v : RevertWindow),
     time.valid = true → s.executes o.port n (.handoverRevert o.port time) → s.serving? o = some source →
     s.handover? o = none → s.resolveOn source time s.tb.lt false 0 = .found lt adv → s.revert? o = some v →
     s.timed v.retiring = true →
     before (if ticksTo s.tb.lt lt < 24000 then plus s.tb.lt 24000 else lt) v.closeLt = false →
     exec (.handoverRevert o.port time) s = .next (s.setPort o.port ((s.port o.port).answered n .noHo [])))
  ∧ (∀ (s : State) (o : Owner) (n : Nat), s.executes o.port n (.handoverCancel o.port) →
     (s.handover? o = none → exec (.handoverCancel o.port) s =
       .next (s.setPort o.port ((s.port o.port).answered n .noHo [])))
     ∧ ∀ ho, s.handover? o = some ho →
         (∀ h r, s.record? h = some r → r.owner = o → r.binding = .followsServing → r.occ.entry = ho.target →
           r.occ.state ≠ .granted ∧ r.occ.state ≠ .waiting) →
         ∃ t, exec (.handoverCancel o.port) s = .next t ∧ t.handover? o = none
           ∧ t.handover? o.other = s.handover? o.other ∧ t.hu.windows = s.hu.windows
           ∧ t.port o.port = (s.port o.port).answered n .ok [0, 0, 0, 0, 0, 0]
           ∧ s.replannedExcept t [.hu, .port o.port])

/-- O47. At Ts of a PENDING HANDOVER the old retiring entry becomes NEIGHBOUR, the source RETIRING and the target
SERVING, the revert window opens on the source until Ts + 294,912,000; at Ts of a REVERT the target is SERVING again,
the source NEIGHBOUR and the window CLOSED. Trigger counts and candidate flags of the owner are cleared, the record is
NONE, and SWITCHED is posted (R145, R151, R25). A follows-serving record GRANTED, ACTIVE or SUSPENDED on the source stays as
it is; the only one WAITING there whose index is taken, resolved on the target with the present LT as reference, far enough
ahead and in conflict with nothing, is GRANTED at that start with shift 0 (R146, R56); the statement takes a start so far
ahead that no notice is due yet. At the close LT of an OPEN window its entry becomes NEIGHBOUR, the window is CLOSED, and
REVERT_CLOSED is posted (R150). -/
def Obligations.SwitchAndCloseMoveTheDesignations : Prop :=
  (∀ (s : State) (o : Owner) (ho : Handover), s.handover? o = some ho → s.counting = true →
     s.reached ho.ts = true →
     let waits := fun (r : Record) => r.owner = o ∧ r.binding = .followsServing ∧ r.occ.entry = ho.source
       ∧ r.occ.state = .waiting
     let switched := fun (parts : List Block) (ok : State → Prop) (i : Instr) (state : Nat → CellState → CellState)
         (w : Option RevertWindow) (third : Nat) =>
       ∃ t, exec i s = .next t ∧ t.handover? o = none ∧ t.handover? o.other = s.handover? o.other
         ∧ t.revert? o = w ∧ t.revert? o.other = s.revert? o.other
         ∧ (∀ j, t.cell? j = (s.cell? j).map (fun c =>
             if c.owner = o then { c with state := state j c.state, triggerCount := 0, candidate := false }
             else { c with state := state j c.state }))
         ∧ t.ct.triggers = s.ct.triggers ∧ ok t
         ∧ t.port o.port = (s.port o.port).push
             ⟨.switched, ho.target, .none, switchedFlags (ho.kind == .revert) ho.clamped,
               low16 (ho.source + 256 * third), s.tb.lt⟩
         ∧ s.replannedExcept t (.ct :: .hu :: .port o.port :: parts)
     let switches := fun (parts : List Block) (ok : State → Prop) =>
       (ho.kind = .handover →
         switched parts ok (.handoverSwitch o)
           (fun j old => if j = ho.target then .serving else if j = ho.source then .retiring
             else if (s.revert? o).any (fun v => v.retiring == j) then .neighbour else old)
           (some ⟨plus ho.ts 294912000, ho.source⟩) (((s.revert? o).map (·.retiring)).getD 255))
       ∧ (ho.kind = .revert →
           switched parts ok (.revertSwitch o)
             (fun j old => if j = ho.source then .neighbour else if j = ho.target then .serving else old) none 255)
     ((∀ h r, s.record? h = some r → ¬waits r) → switches [] (fun _ => True))
     ∧ (∀ (h adv : Nat) (r : Record) (start : LocalTime), s.record? h = some r → waits r →
         (∀ k q, k ≠ h → s.record? k = some q → ¬waits q) → r.occ.taken = true →
         s.resolveOn ho.target { r.start with frame := (r.start.frame + r.occ.k * r.period.getD 0) % 2048 } s.tb.lt
           r.kind.isTx 0 = .found start adv →
         s.farEnough start = true → before s.tb.lt (less start s.sc.params.lead) = true →
         (∀ k q, k ≠ h → s.record? k = some q → q.occ.state.inTimeline = true →
           s.conflicts o r.occ.profile start r.occ.remaining q = false) →
         switches [.rt] (fun t => (∀ k, k ≠ h → t.record? k = s.record? k) ∧ t.record? h = some
           { r with occ := { r.occ with
               state := .granted, entry := ho.target, nominal := some start, advance := adv, placed := start, shift := 0
               notice := some (less start s.sc.params.lead) } })))
  ∧ (∀ (s : State) (o : Owner) (v : RevertWindow), s.revert? o = some v → s.counting = true →
     s.reached v.closeLt = true →
     ∃ t, exec (.revertClose o) s = .next t ∧ t.revert? o = none ∧ t.revert? o.other = s.revert? o.other
       ∧ t.hu.records = s.hu.records
       ∧ (∀ j, t.cell? j = (s.cell? j).map (fun c => if j = v.retiring then { c with state := .neighbour } else c))
       ∧ t.ct.triggers = s.ct.triggers
       ∧ t.port o.port = (s.port o.port).push ⟨.revertClosed, v.retiring, .none, 0, 0, s.tb.lt⟩
       ∧ s.replannedExcept t [.ct, .hu, .port o.port])

/-- O48. ANCHOR_EXPIRY: eight cycles after its LT the anchor goes and STALE is posted, its detail the number of
occurrences GRANTED or SUSPENDED on the entry, here none or one; occurrences ACTIVE or WAITING there stay. The one, bound to
the entry by index or following it as the SERVING entry or the source of a pending handover, without a session, leaves the
timeline and is lost, a remainder with its WINDOW_END. With nothing remaining MISSED UNTIMED without the waiting flag and
RECORD_ENDED follow and the record is gone; else its next index stands WAITING on the entry, and MISSED UNTIMED says so with
the waiting flag; the detail of either is 1 (R30, R41, R49, R50, R58). A PENDING handover to the entry on which no
follows-serving record rests fails with HO_FAILED, detail 0, after it (R149). How the detail of STALE is found is
notes/assumptions/22. -/
def Obligations.AnchorExpiresAfterEightCycles : Prop :=
  ∀ (s : State) (i : Nat) (c : Cell) (a : Anchor), s.cell? i = some c → c.anchor = some a → s.counting = true →
    s.reached (plus a.lt 2359296000) = true →
    let o := c.owner
    let ends := fun (r : Record) => r.occ.entry = i ∧ (r.occ.state = .granted ∨ r.occ.state = .suspended)
    (∀ ho, s.handover? o = some ho → ho.target = i → ∀ h r, s.record? h = some r → r.owner = o →
      r.binding = .followsServing → r.occ.entry = i → r.occ.state ≠ .granted ∧ r.occ.state ≠ .suspended
        ∧ r.occ.state ≠ .waiting) →
    let expires := fun (parts : List Block) (detail : BitVec 16) (events : List Event) (ended : Bool)
        (ok : State → Prop) =>
      ∃ t, exec (.anchorExpiry i) s = .next t
        ∧ t.cell? i = some { c with anchor := none, refCount := if ended then c.refCount - 1 else c.refCount }
        ∧ (∀ j, j ≠ i → t.cell? j = s.cell? j) ∧ t.ct.triggers = s.ct.triggers
        ∧ t.handover? o.other = s.handover? o.other ∧ t.hu.windows = s.hu.windows ∧ ok t
        ∧ (let told := events.foldl PortState.push ((s.port o.port).push ⟨.stale, i, .none, 0, detail, s.tb.lt⟩)
           (∀ ho, s.handover? o = some ho → ho.target = i → t.handover? o = none
              ∧ t.port o.port = told.push ⟨.hoFailed, i, .stale, flagBits [ho.kind == .revert], 0, s.tb.lt⟩)
           ∧ ((∀ ho, s.handover? o = some ho → ho.target ≠ i) →
              t.handover? o = s.handover? o ∧ t.port o.port = told))
        ∧ s.replannedExcept t (.ct :: .hu :: .port o.port :: parts)
    ((∀ h r, s.record? h = some r → ¬ends r) → expires [] 0 [] false (fun _ => True))
    ∧ (∀ (h : Nat) (r : Record), s.record? h = some r → ends r →
        (∀ k q, k ≠ h → s.record? k = some q → ¬ends q) → r.owner = o → r.link = none →
        r.binding = .byIndex i ∨ (r.binding = .followsServing
          ∧ ((s.handover? o = none ∧ s.serving? o = some i) ∨ ∃ ho, s.handover? o = some ho ∧ ho.source = i)) →
        let windowEnd : List Event := if r.occ.state = .suspended then
          [⟨.windowEnd, h, .untimed, windowEndFlags false false true r.occ, sat16 (r.occ.served / 16), s.tb.lt⟩] else []
        let missed := fun (waiting : Bool) => (⟨.missed, h, .untimed, flagBits [waiting], 1, s.tb.lt⟩ : Event)
        let others := fun (t : State) => ∀ k, k ≠ h → t.record? k = s.record? k
        (r.remaining = some 0 →
          expires [.rt] 1
            (windowEnd ++ [missed false, ⟨.recordEnded, h, .exhausted, 0, low16 r.served, s.tb.lt⟩])
            (r.binding == .byIndex i) (fun t => others t ∧ t.record? h = none))
        ∧ (r.remaining ≠ some 0 →
            let k := (r.occ.k + 1) % 65536
            expires [.rt] 1 (windowEnd ++ [missed true]) false (fun t => others t ∧ t.record? h = some
              { r with
                remaining := r.remaining.map (· - 1), lost := min (r.lost + 1) 65535
                occ :=
                 { k := k, state := .waiting, entry := i, nominal := none, advance := 0, placed := 0, shift := 0
                   remaining := r.length, served := 0, suspensions := 0, level := r.level, slack := r.slack
                   profile := r.profile, resumable := r.resumable, taken := r.mask.getLsbD (k % 16)
                   firstRise := none, cutAt := none, shortfall := false, resumeFloor := none, deadline := none
                   lateLoad := false, widened := false, notice := none } })))

/-! ### Sleep and calibration -/

/-- O49. VOTE stores the vote of the issuing port, 0 HOLD and 1 ALLOW, and answers it with the number of enabled ports
that now vote ALLOW; any other value is refused with BAD_PARAM and the vote is left (R155). -/
def Obligations.VoteIsStored : Prop :=
  ∀ (s : State) (p : Port) (n v : Nat), s.executes p n (.vote p v) →
    (1 < v → exec (.vote p v) s = .next (s.setPort p ((s.port p).answered n .badParam [])))
    ∧ (v ≤ 1 → ∃ t, exec (.vote p v) s = .next t
        ∧ t.port p = ({ s.port p with vote := some (if v = 1 then .allow else .hold) } : PortState).answered n .ok
            (bytesOfNat 1 v ++ bytesOfNat 1 ([Port.subA, .subB, .policy].filter (fun q =>
              (t.port q).enabled && (t.port q).vote == some .allow)).length)
        ∧ s.sameExcept t [.port p])

/-- O50. SET SLEEP stores the eight parameters, each clamped to its range at the nearest bound, and answers them in their
widths with one flag bit for each that was clamped; it clears the span-short mark and leaves the sleep in hand and a
running calibration. On a SUB port PI refuses it with WRONG_PORT. The defaults are those of the table (R166). -/
def Obligations.SetSleepClampsAndStores : Prop :=
  (∀ (o : Owner) (ps : List Byte), parseFrame o.port 31 ps = .refused .wrongPort)
  ∧ State.reset.sc.params = ⟨24000, 66, 64, 983040, 50, 12, 2, 16⟩
  ∧ ∀ (s : State) (n : Nat) (a : SleepParams), s.executes .policy n (.setSleep .policy a) →
    let out := fun (x low high : Nat) => decide (x < low ∨ high < x)
    let clamped := fun (x low high : Nat) => if x < low then low else if high < x then high else x
    let b : SleepParams :=
      ⟨clamped a.lead 0 240000, clamped a.warmUp 1 255, clamped a.spanMin 8 65535, clamped a.spanMax 256 16777215,
        clamped a.uncertainty 1 500, clamped a.exponent 10 16, clamped a.shift 0 3, clamped a.autoInterval 0 255⟩
    ∃ t, exec (.setSleep .policy a) s = .next t ∧ t.sc = { s.sc with params := b, spanShort := false }
      ∧ t.port .policy = (s.port .policy).answered n .ok
          (bytesOfNat 3 b.lead ++ bytesOfNat 1 b.warmUp ++ bytesOfNat 2 b.spanMin ++ bytesOfNat 3 b.spanMax
            ++ bytesOfNat 2 b.uncertainty ++ bytesOfNat 1 b.exponent ++ bytesOfNat 1 b.shift
            ++ bytesOfNat 1 b.autoInterval
            ++ [flagBits [out a.lead 0 240000, out a.warmUp 1 255, out a.spanMin 8 65535, out a.spanMax 256 16777215,
                out a.uncertainty 1 500, out a.exponent 10 16, out a.shift 0 3, out a.autoInterval 0 255]])
      ∧ s.sameExcept t [.sc, .port .policy]

/-- O51. CALIBRATE starts a run with the n in force in WAITING_EDGE, answers n and 2^n and sets wakes since calibration to
0; a running calibration refuses it with BUSY_CAL. GATE_OPEN then opens the gate with C at 0 and no edge counted (R170,
R172). On a SUB port PI refuses CALIBRATE with WRONG_PORT. -/
def Obligations.CalibrationStartsAndOpensItsGate : Prop :=
  (∀ (o : Owner) (ps : List Byte), parseFrame o.port 33 ps = .refused .wrongPort)
  ∧ ∀ s : State,
    (∀ n, s.executes .policy n (.calibrate .policy) →
      (s.tb.run ≠ none → exec (.calibrate .policy) s =
        .next (s.setPort .policy ((s.port .policy).answered n .busyCal [])))
      ∧ (s.tb.run = none → ∃ t, exec (.calibrate .policy) s = .next t
          ∧ t.tb = { s.tb with run := some ⟨s.sc.params.exponent, .waitingEdge, 0, 0, false⟩ }
          ∧ t.sc = { s.sc with wakes := 0 }
          ∧ t.port .policy = (s.port .policy).answered n .ok
              (bytesOfNat 1 s.sc.params.exponent ++ bytesOfNat 3 (2 ^ s.sc.params.exponent))
          ∧ s.sameExcept t [.tb, .sc, .port .policy]))
    ∧ ∀ run, s.tb.run = some run → run.gate = .waitingEdge →
        ∃ t, exec .gateOpen s = .next t
          ∧ t.tb = { s.tb with run := some ⟨run.exponent, .counting, 0, 0, run.auto⟩ }
          ∧ s.replannedExcept t [.tb]

/-- O52. At the 2^n-th slow edge of the gate TB forms C × 2^(16 − n) and the ppm, an exact half rounded away from zero. In
range, the ratio becomes the measured one where TB was uncalibrated, and else old + trunc((measured − old) / 2^k), which
lies between the two; out of range it is held. The record is written, the run ends, CAL_DONE or CAL_REJECTED goes to
POLICY and the span-short mark is cleared (R172, R173, R174, R156). -/
def Obligations.GateCloseEvaluatesTheRun : Prop :=
  ∀ (s : State) (run : CalRun), s.tb.run = some run → run.gate = .counting → run.edges + 1 = 2 ^ run.exponent →
    let m := run.count * 2 ^ (16 - run.exponent)
    ∃ t ppm, exec .gateClose s = .next t
      ∧ 2 * ((m : Int) - 48000000 - 48 * ppm).natAbs ≤ 48
      ∧ (2 * ((m : Int) - 48000000 - 48 * ppm).natAbs = 48 → ((m : Int) - 48000000).natAbs < (48 * ppm).natAbs)
      ∧ (47760000 ≤ m → m ≤ 48240000 →
          t.tb = { s.tb with
            ratio := t.tb.ratio, uncalibrated := false, run := none
            lastCal := ⟨.done, run.exponent, run.count, m, ppm, s.tb.lt, run.auto⟩ }
          ∧ (s.tb.uncalibrated = true → t.tb.ratio = m)
          ∧ (s.tb.uncalibrated = false →
              (t.tb.ratio : Int) = s.tb.ratio + Int.tdiv ((m : Int) - s.tb.ratio) (2 ^ s.sc.params.shift)
              ∧ min s.tb.ratio m ≤ t.tb.ratio ∧ t.tb.ratio ≤ max s.tb.ratio m)
          ∧ t.port .policy = (s.port .policy).push
              ⟨.calDone, run.exponent, .none, flagBits [s.tb.uncalibrated, run.auto], BitVec.ofInt 16 ppm, s.tb.lt⟩)
      ∧ (m < 47760000 ∨ 48240000 < m →
          t.tb = { s.tb with
            run := none, lastCal := ⟨.rejected, run.exponent, run.count, m, ppm, s.tb.lt, run.auto⟩ }
          ∧ t.port .policy = (s.port .policy).push
              ⟨.calRejected, run.exponent, .none, flagBits [false, run.auto],
                BitVec.ofInt 16 (max (-32768) (min 32767 ppm)), s.tb.lt⟩)
      ∧ t.sc.spanShort = false ∧ s.replannedExcept t [.tb, .port .policy]

/-- O53. SLEEP_ENTRY takes the part from AWAKE to ENTERING exactly when every enabled port votes ALLOW, no command
executes, no window is ACTIVE, no calibration runs and the span-short mark is clear (R154, R156). That the row leaves the
state as it is where they do not hold is the model's choice (notes/assumptions/2). -/
def Obligations.SleepEntryNeedsEveryConsent : Prop :=
  ∀ s : State,
    let holds := (∀ p, ((s.port p).enabled = true → (s.port p).vote = some .allow) ∧ ∀ m, (s.port p).slot ≠ .pending m)
      ∧ (∀ h r, s.record? h = some r → r.occ.state ≠ .active) ∧ s.tb.run = none
    (s.sc.state = .awake → holds → s.sc.spanShort = false →
      ∃ t, exec .sleepEntry s = .next t ∧ t.sc = { s.sc with state := .entering }
        ∧ t.wc = { s.wc with next := t.wc.next, load := t.wc.load } ∧ s.sameExcept t [.wc, .sc])
    ∧ (s.sc.state ≠ .awake ∨ ¬holds ∨ s.sc.spanShort = true → exec .sleepEntry s = .next s)

/-- O54. ENTRY_EDGE: the target is the candidate whose time less its lead is earliest, a window before an expiry; margin,
span and S follow R159, and the part falls ASLEEP with S, Smax at most, in hand, LT held and REF_EN low, or returns to
AWAKE with the span-short mark set. The advance after S never carries LT past T less lead and margin. A load before its
latch tick is abandoned, and one past it counts as completed (R157 to R160, R162, R92). The model's choices: written
since load is clear after an abandoned word (notes/assumptions/27), and a completed load that began in a part since cut
sets the late-load flag of its SUSPENDED window (notes/assumptions/36). -/
def Obligations.EntryEdgeFixesTheSleep : Prop :=
  ∀ (s : State) (at' : LocalTime) (lead : Nat) (kind : TargetKind), s.sc.state = .entering →
    (∀ h r, s.record? h = some r → r.occ.state ≠ .active) →
    let candidate := fun (t : LocalTime) (l : Nat) (k : TargetKind) =>
      (k = .window ∧ l = s.sc.params.lead ∧ ∃ h r rest, s.timeline = (h, r) :: rest ∧ t = r.occ.placed)
      ∨ (k = .anchorExpiry ∧ l = 0 ∧ ∃ i c a, s.cell? i = some c ∧ c.anchor = some a ∧ t = plus a.lt 2359296000)
      ∨ (k = .switch ∧ l = 0 ∧ ∃ o ho, s.handover? o = some ho ∧ t = ho.ts)
      ∨ (k = .revertClose ∧ l = 0 ∧ ∃ o v, s.revert? o = some v ∧ t = v.closeLt)
    let u := if s.tb.uncalibrated then 500 else s.sc.params.uncertainty
    let least := max s.sc.params.spanMin (s.sc.params.warmUp + 2)
    let stays := ∃ t, exec .entryEdge s = .next t
      ∧ t.sc = { s.sc with state := .awake, spanShort := s.entryCondition }
      ∧ t.wc = { s.wc with next := t.wc.next, load := t.wc.load } ∧ s.sameExcept t [.wc, .sc]
    let sleeps := fun (span : Nat) (ok : SleepHand → Prop) => ∃ t hand, exec .entryEdge s = .next t
      ∧ t.sc = { s.sc with
          state := .asleep, hand := some hand, counter := 0, early := none, refEn := false, spanShort := t.sc.spanShort }
      ∧ hand = ⟨s.tb.lt, min span s.sc.params.spanMax, hand.margin, hand.kind, hand.noTarget,
          decide (s.sc.params.spanMax < span), s.sc.params.warmUp, u, s.tb.ratio, s.tb.uncalibrated⟩
      ∧ ok hand
      ∧ t.wc = { s.wc with
          next := t.wc.next, load := none, lastLoaded := t.wc.lastLoaded, writtenSince := t.wc.writtenSince }
      ∧ (s.wc.load = none → t.wc.lastLoaded = s.wc.lastLoaded ∧ t.wc.writtenSince = s.wc.writtenSince)
      ∧ (∀ l, s.wc.load = some l → ticksTo l.start s.tb.lt < 144 →
          t.wc.lastLoaded = none ∧ t.wc.writtenSince = false)
      ∧ (∀ l, s.wc.load = some l → 144 ≤ ticksTo l.start s.tb.lt →
          t.wc.lastLoaded = (if l.orphaned then none else some (l.owner, l.profile))
            ∧ t.wc.writtenSince = (!l.orphaned && l.rewritten))
      ∧ (∀ h, t.record? h = (s.record? h).map (fun r =>
          let late := s.wc.load.any (fun l => decide (144 ≤ ticksTo l.start s.tb.lt) && l.serves == some (h, r.occ.k)
            && l.rise.any (fun x => before x s.tb.lt))
          { r with occ := { r.occ with lateLoad := r.occ.lateLoad || late } }))
      ∧ s.sameExcept t [.rt, .wc, .sc]
    ((∀ t l k, ¬candidate t l k) →
        (s.sc.params.spanMax < least → stays)
        ∧ (least ≤ s.sc.params.spanMax →
            sleeps s.sc.params.spanMax (fun hand => hand.kind = .none ∧ hand.noTarget = true)))
    ∧ (candidate at' lead kind →
        (∀ t l k, candidate t l k → (t, l, k) ≠ (at', lead, kind) →
          before (less at' lead) (less t l) = true
            ∨ (kind = .window ∧ before (less t l) (less at' lead) = false)) →
        let d := ticksTo s.tb.lt at'
        let margin := min 24000 ((d * u + 999999) / 1000000)
        let span := d - lead - margin
        let periods := (span * 65536 - s.tb.residue) / s.tb.ratio
        (before s.tb.lt at' = false ∨ d ≤ lead + margin ∨ span * 65536 < s.tb.residue ∨ periods < least → stays)
        ∧ (before s.tb.lt at' = true → lead + margin < d → s.tb.residue ≤ span * 65536 → least ≤ periods →
            sleeps periods (fun hand => hand.margin = margin ∧ hand.kind = kind ∧ hand.noTarget = false
              ∧ (hand.span * s.tb.ratio + s.tb.residue) / 65536 + lead + margin ≤ d)))

/-- O55. OSCILLATOR_WARM_UP, as the edge that brings the count to S − Ws or upon it, takes ASLEEP to WAKING with REF_EN
high. TIMER_WAKE at S and COMMAND_WAKE at
the early count advance LT from LT_e by floor((c × Q + r) / 65,536), keep the remainder as residue, hand WC W_pending,
write the last sleep record, post WOKE to POLICY, start a calibration where the auto interval calls for one, and check
the frames held across the sleep (R161 to R164, R167, R171, R179). The model's choices: port 0 in the record of a timer
wake (notes/assumptions/24), and the two forms of the warm-up edge (notes/assumptions/47). -/
def Obligations.WakesAdvanceLocalTime : Prop :=
  ∀ (s : State) (hand : SleepHand), s.sc.hand = some hand →
    (s.sc.state = .asleep → s.sc.counter = hand.span - hand.warmUp ∨ s.sc.counter + 1 = hand.span - hand.warmUp →
      ∃ t, exec .oscillatorWarmUp s = .next t
        ∧ t.sc = { s.sc with state := .waking, refEn := true, counter := hand.span - hand.warmUp, spanShort := t.sc.spanShort }
        ∧ t.wc = { s.wc with next := t.wc.next, load := t.wc.load } ∧ s.sameExcept t [.wc, .sc])
    ∧ (s.sc.state = .waking →
        let wakes := fun (i : Instr) (count : Nat) (timer : Bool) (port : Nat) =>
          let advance := (count * hand.ratio + s.tb.residue) / 65536
          let widening := if timer = true ∧ hand.noTarget = false then hand.margin
            else min 24000 ((advance * hand.uncertainty + 999999) / 1000000)
          let woken := min (s.sc.wakes + 1) 255
          let starts := s.sc.params.autoInterval ≠ 0 ∧ s.sc.params.autoInterval ≤ woken ∧ s.tb.run = none
          ∃ t, exec i s = .next t
            ∧ t.tb = { s.tb with
                lt := plus hand.entryLt advance, residue := (count * hand.ratio + s.tb.residue) % 65536
                run := t.tb.run }
            ∧ t.wc = { s.wc with
                pendingWidening := widening, wakeLt := plus hand.entryLt advance, next := t.wc.next, load := t.wc.load }
            ∧ t.sc = { s.sc with
                state := .awake, refEn := true, hand := none, early := none, counter := t.sc.counter
                spanShort := t.sc.spanShort, wakes := t.sc.wakes
                last := ⟨hand.entryLt, hand.span, hand.clamped, hand.noTarget, hand.kind, count, advance, widening,
                  if timer then .timer else .command, port⟩ }
            ∧ (starts → t.sc.wakes = 0 ∧ t.tb.run = some ⟨s.sc.params.exponent, .waitingEdge, 0, 0, true⟩)
            ∧ (¬starts → t.sc.wakes = woken ∧ t.tb.run = s.tb.run)
            ∧ (∀ p, let x := if p = .policy then (s.port p).push ⟨.woke, port, if timer then .timer else .command,
                  flagBits [hand.uncalibrated, hand.clamped, hand.noTarget], low16 widening, t.tb.lt⟩ else s.port p
                ((∀ f st, (s.port p).buffer = some f → parseFrame p f.number f.params ≠ .refused st) → t.port p = x)
                ∧ ∀ f st m, (s.port p).buffer = some f → (s.port p).slot = .pending m →
                    parseFrame p f.number f.params = .refused st → t.port p = x.answered m st [])
            ∧ s.sameExcept t [.tb, .wc, .sc, .port .subA, .port .subB, .port .policy]
        (s.sc.early = none → s.sc.counter + 1 = hand.span → wakes .timerWake hand.span true 0)
        ∧ ∀ count p, s.sc.early = some (count, p) → s.sc.counter + 1 = count →
            wakes .commandWake count false p.code)

/-! ### What every step keeps -/

/-- O56. Every step keeps the settings in their ranges: the ratio in 47,760,000..48,240,000 and the residue below 65,536
(R169), the policy ascending and the guard at most 12,000 (R65), each sleep parameter in its range (R166), and REF_EN low
exactly in ASLEEP (R154). -/
def Obligations.StepKeepsSettingsInRange : Prop :=
  ∀ s t : State, s.ratioSound ∧ s.policySound ∧ s.sleepSound ∧ s.oscillatorSound → step s = .next t →
    t.ratioSound ∧ t.policySound ∧ t.sleepSound ∧ t.oscillatorSound

/-- O57. Every step keeps each queue at 16 records or fewer and each overflow count at 255 or less (R183). -/
def Obligations.StepKeepsQueuesBounded : Prop :=
  ∀ s t : State, s.queuesSound → step s = .next t → t.queuesSound

/-- O58. Every step keeps at most one window ACTIVE, and each window line high exactly where the ACTIVE window has its
direction, so that the two are never high together (R93). -/
def Obligations.StepKeepsTheAirToOneWindow : Prop :=
  ∀ s t : State, s.airSound → step s = .next t → t.airSound

/-- O59. Every step keeps POLICY enabled, and a disabled port DISABLED, with an empty queue and buffer and no vote (R178,
R184, R186). -/
def Obligations.StepKeepsDisabledPortsOut : Prop :=
  ∀ s t : State, s.portsSound → step s = .next t → t.portsSound

/-- O60. The reset state is sound in every one of these ways. -/
def Obligations.ResetIsSound : Prop :=
  State.reset.ratioSound ∧ State.reset.policySound ∧ State.reset.sleepSound ∧ State.reset.oscillatorSound
    ∧ State.reset.queuesSound ∧ State.reset.airSound ∧ State.reset.portsSound
end

