-- ==== Sys2Proof/Laws/State.lean ====
section
/-!
SUPPORT. One lemma per update and field of the state it leaves alone, so that no later proof unfolds a record update.
-/

namespace Sys2Proof.Machine

variable (s : State)

/-! ### `setPort` -/

@[simp] theorem setPort_tb (p : Port) (x : PortState) : (s.setPort p x).tb = s.tb := rfl
@[simp] theorem setPort_ct (p : Port) (x : PortState) : (s.setPort p x).ct = s.ct := rfl
@[simp] theorem setPort_rt (p : Port) (x : PortState) : (s.setPort p x).rt = s.rt := rfl
@[simp] theorem setPort_arb (p : Port) (x : PortState) : (s.setPort p x).arb = s.arb := rfl
@[simp] theorem setPort_wc (p : Port) (x : PortState) : (s.setPort p x).wc = s.wc := rfl
@[simp] theorem setPort_su (p : Port) (x : PortState) : (s.setPort p x).su = s.su := rfl
@[simp] theorem setPort_hu (p : Port) (x : PortState) : (s.setPort p x).hu = s.hu := rfl
@[simp] theorem setPort_sc (p : Port) (x : PortState) : (s.setPort p x).sc = s.sc := rfl
@[simp] theorem setPort_resetN (p : Port) (x : PortState) : (s.setPort p x).resetN = s.resetN := rfl
@[simp] theorem setPort_free (p : Port) (x : PortState) : (s.setPort p x).free = s.free := rfl
@[simp] theorem setPort_pending (p : Port) (x : PortState) : (s.setPort p x).pending = s.pending := rfl

/-! ### `setCell` -/

@[simp] theorem setCell_tb (i : Nat) (c : Option Cell) : (s.setCell i c).tb = s.tb := rfl
@[simp] theorem setCell_rt (i : Nat) (c : Option Cell) : (s.setCell i c).rt = s.rt := rfl
@[simp] theorem setCell_arb (i : Nat) (c : Option Cell) : (s.setCell i c).arb = s.arb := rfl
@[simp] theorem setCell_wc (i : Nat) (c : Option Cell) : (s.setCell i c).wc = s.wc := rfl
@[simp] theorem setCell_su (i : Nat) (c : Option Cell) : (s.setCell i c).su = s.su := rfl
@[simp] theorem setCell_hu (i : Nat) (c : Option Cell) : (s.setCell i c).hu = s.hu := rfl
@[simp] theorem setCell_sc (i : Nat) (c : Option Cell) : (s.setCell i c).sc = s.sc := rfl
@[simp] theorem setCell_pi (i : Nat) (c : Option Cell) : (s.setCell i c).pi = s.pi := rfl
@[simp] theorem setCell_resetN (i : Nat) (c : Option Cell) : (s.setCell i c).resetN = s.resetN := rfl
@[simp] theorem setCell_free (i : Nat) (c : Option Cell) : (s.setCell i c).free = s.free := rfl
@[simp] theorem setCell_pending (i : Nat) (c : Option Cell) : (s.setCell i c).pending = s.pending := rfl

/-! ### `setRecord` -/

@[simp] theorem setRecord_tb (h : Nat) (r : Option Record) : (s.setRecord h r).tb = s.tb := rfl
@[simp] theorem setRecord_ct (h : Nat) (r : Option Record) : (s.setRecord h r).ct = s.ct := rfl
@[simp] theorem setRecord_arb (h : Nat) (r : Option Record) : (s.setRecord h r).arb = s.arb := rfl
@[simp] theorem setRecord_wc (h : Nat) (r : Option Record) : (s.setRecord h r).wc = s.wc := rfl
@[simp] theorem setRecord_su (h : Nat) (r : Option Record) : (s.setRecord h r).su = s.su := rfl
@[simp] theorem setRecord_hu (h : Nat) (r : Option Record) : (s.setRecord h r).hu = s.hu := rfl
@[simp] theorem setRecord_sc (h : Nat) (r : Option Record) : (s.setRecord h r).sc = s.sc := rfl
@[simp] theorem setRecord_pi (h : Nat) (r : Option Record) : (s.setRecord h r).pi = s.pi := rfl
@[simp] theorem setRecord_resetN (h : Nat) (r : Option Record) : (s.setRecord h r).resetN = s.resetN := rfl
@[simp] theorem setRecord_free (h : Nat) (r : Option Record) : (s.setRecord h r).free = s.free := rfl
@[simp] theorem setRecord_pending (h : Nat) (r : Option Record) : (s.setRecord h r).pending = s.pending := rfl

/-! ### `setCall` -/

@[simp] theorem setCall_tb (o : Owner) (c : Option Call) : (s.setCall o c).tb = s.tb := rfl
@[simp] theorem setCall_ct (o : Owner) (c : Option Call) : (s.setCall o c).ct = s.ct := rfl
@[simp] theorem setCall_rt (o : Owner) (c : Option Call) : (s.setCall o c).rt = s.rt := rfl
@[simp] theorem setCall_arb (o : Owner) (c : Option Call) : (s.setCall o c).arb = s.arb := rfl
@[simp] theorem setCall_wc (o : Owner) (c : Option Call) : (s.setCall o c).wc = s.wc := rfl
@[simp] theorem setCall_hu (o : Owner) (c : Option Call) : (s.setCall o c).hu = s.hu := rfl
@[simp] theorem setCall_sc (o : Owner) (c : Option Call) : (s.setCall o c).sc = s.sc := rfl
@[simp] theorem setCall_pi (o : Owner) (c : Option Call) : (s.setCall o c).pi = s.pi := rfl
@[simp] theorem setCall_resetN (o : Owner) (c : Option Call) : (s.setCall o c).resetN = s.resetN := rfl
@[simp] theorem setCall_free (o : Owner) (c : Option Call) : (s.setCall o c).free = s.free := rfl
@[simp] theorem setCall_pending (o : Owner) (c : Option Call) : (s.setCall o c).pending = s.pending := rfl

/-! ### `setExchange` -/

@[simp] theorem setExchange_tb (i : Nat) (e : Option Exchange) : (s.setExchange i e).tb = s.tb := rfl
@[simp] theorem setExchange_ct (i : Nat) (e : Option Exchange) : (s.setExchange i e).ct = s.ct := rfl
@[simp] theorem setExchange_rt (i : Nat) (e : Option Exchange) : (s.setExchange i e).rt = s.rt := rfl
@[simp] theorem setExchange_arb (i : Nat) (e : Option Exchange) : (s.setExchange i e).arb = s.arb := rfl
@[simp] theorem setExchange_wc (i : Nat) (e : Option Exchange) : (s.setExchange i e).wc = s.wc := rfl
@[simp] theorem setExchange_hu (i : Nat) (e : Option Exchange) : (s.setExchange i e).hu = s.hu := rfl
@[simp] theorem setExchange_sc (i : Nat) (e : Option Exchange) : (s.setExchange i e).sc = s.sc := rfl
@[simp] theorem setExchange_pi (i : Nat) (e : Option Exchange) : (s.setExchange i e).pi = s.pi := rfl
@[simp] theorem setExchange_resetN (i : Nat) (e : Option Exchange) : (s.setExchange i e).resetN = s.resetN := rfl
@[simp] theorem setExchange_free (i : Nat) (e : Option Exchange) : (s.setExchange i e).free = s.free := rfl
@[simp] theorem setExchange_pending (i : Nat) (e : Option Exchange) : (s.setExchange i e).pending = s.pending := rfl

/-! ### `setHandover` -/

@[simp] theorem setHandover_tb (o : Owner) (h : Option Handover) : (s.setHandover o h).tb = s.tb := rfl
@[simp] theorem setHandover_ct (o : Owner) (h : Option Handover) : (s.setHandover o h).ct = s.ct := rfl
@[simp] theorem setHandover_rt (o : Owner) (h : Option Handover) : (s.setHandover o h).rt = s.rt := rfl
@[simp] theorem setHandover_arb (o : Owner) (h : Option Handover) : (s.setHandover o h).arb = s.arb := rfl
@[simp] theorem setHandover_wc (o : Owner) (h : Option Handover) : (s.setHandover o h).wc = s.wc := rfl
@[simp] theorem setHandover_su (o : Owner) (h : Option Handover) : (s.setHandover o h).su = s.su := rfl
@[simp] theorem setHandover_sc (o : Owner) (h : Option Handover) : (s.setHandover o h).sc = s.sc := rfl
@[simp] theorem setHandover_pi (o : Owner) (h : Option Handover) : (s.setHandover o h).pi = s.pi := rfl
@[simp] theorem setHandover_resetN (o : Owner) (h : Option Handover) : (s.setHandover o h).resetN = s.resetN := rfl
@[simp] theorem setHandover_free (o : Owner) (h : Option Handover) : (s.setHandover o h).free = s.free := rfl
@[simp] theorem setHandover_pending (o : Owner) (h : Option Handover) : (s.setHandover o h).pending = s.pending := rfl

/-! ### `setRevert` -/

@[simp] theorem setRevert_tb (o : Owner) (v : Option RevertWindow) : (s.setRevert o v).tb = s.tb := rfl
@[simp] theorem setRevert_ct (o : Owner) (v : Option RevertWindow) : (s.setRevert o v).ct = s.ct := rfl
@[simp] theorem setRevert_rt (o : Owner) (v : Option RevertWindow) : (s.setRevert o v).rt = s.rt := rfl
@[simp] theorem setRevert_arb (o : Owner) (v : Option RevertWindow) : (s.setRevert o v).arb = s.arb := rfl
@[simp] theorem setRevert_wc (o : Owner) (v : Option RevertWindow) : (s.setRevert o v).wc = s.wc := rfl
@[simp] theorem setRevert_su (o : Owner) (v : Option RevertWindow) : (s.setRevert o v).su = s.su := rfl
@[simp] theorem setRevert_sc (o : Owner) (v : Option RevertWindow) : (s.setRevert o v).sc = s.sc := rfl
@[simp] theorem setRevert_pi (o : Owner) (v : Option RevertWindow) : (s.setRevert o v).pi = s.pi := rfl
@[simp] theorem setRevert_resetN (o : Owner) (v : Option RevertWindow) : (s.setRevert o v).resetN = s.resetN := rfl
@[simp] theorem setRevert_free (o : Owner) (v : Option RevertWindow) : (s.setRevert o v).free = s.free := rfl
@[simp] theorem setRevert_pending (o : Owner) (v : Option RevertWindow) : (s.setRevert o v).pending = s.pending := rfl

/-! ### `postPort` -/

@[simp] theorem postPort_tb (p : Port) (k : EventKind) (x : Nat) (r : Reason) (f : BitVec 8) (d : BitVec 16) : (s.postPort p k x r f d).tb = s.tb := rfl
@[simp] theorem postPort_ct (p : Port) (k : EventKind) (x : Nat) (r : Reason) (f : BitVec 8) (d : BitVec 16) : (s.postPort p k x r f d).ct = s.ct := rfl
@[simp] theorem postPort_rt (p : Port) (k : EventKind) (x : Nat) (r : Reason) (f : BitVec 8) (d : BitVec 16) : (s.postPort p k x r f d).rt = s.rt := rfl
@[simp] theorem postPort_arb (p : Port) (k : EventKind) (x : Nat) (r : Reason) (f : BitVec 8) (d : BitVec 16) : (s.postPort p k x r f d).arb = s.arb := rfl
@[simp] theorem postPort_wc (p : Port) (k : EventKind) (x : Nat) (r : Reason) (f : BitVec 8) (d : BitVec 16) : (s.postPort p k x r f d).wc = s.wc := rfl
@[simp] theorem postPort_su (p : Port) (k : EventKind) (x : Nat) (r : Reason) (f : BitVec 8) (d : BitVec 16) : (s.postPort p k x r f d).su = s.su := rfl
@[simp] theorem postPort_hu (p : Port) (k : EventKind) (x : Nat) (r : Reason) (f : BitVec 8) (d : BitVec 16) : (s.postPort p k x r f d).hu = s.hu := rfl
@[simp] theorem postPort_sc (p : Port) (k : EventKind) (x : Nat) (r : Reason) (f : BitVec 8) (d : BitVec 16) : (s.postPort p k x r f d).sc = s.sc := rfl
@[simp] theorem postPort_resetN (p : Port) (k : EventKind) (x : Nat) (r : Reason) (f : BitVec 8) (d : BitVec 16) : (s.postPort p k x r f d).resetN = s.resetN := rfl
@[simp] theorem postPort_free (p : Port) (k : EventKind) (x : Nat) (r : Reason) (f : BitVec 8) (d : BitVec 16) : (s.postPort p k x r f d).free = s.free := rfl
@[simp] theorem postPort_pending (p : Port) (k : EventKind) (x : Nat) (r : Reason) (f : BitVec 8) (d : BitVec 16) : (s.postPort p k x r f d).pending = s.pending := rfl

/-! ### `post` -/

@[simp] theorem post_tb (o : Owner) (k : EventKind) (x : Nat) (r : Reason) (f : BitVec 8) (d : BitVec 16) : (s.post o k x r f d).tb = s.tb := rfl
@[simp] theorem post_ct (o : Owner) (k : EventKind) (x : Nat) (r : Reason) (f : BitVec 8) (d : BitVec 16) : (s.post o k x r f d).ct = s.ct := rfl
@[simp] theorem post_rt (o : Owner) (k : EventKind) (x : Nat) (r : Reason) (f : BitVec 8) (d : BitVec 16) : (s.post o k x r f d).rt = s.rt := rfl
@[simp] theorem post_arb (o : Owner) (k : EventKind) (x : Nat) (r : Reason) (f : BitVec 8) (d : BitVec 16) : (s.post o k x r f d).arb = s.arb := rfl
@[simp] theorem post_wc (o : Owner) (k : EventKind) (x : Nat) (r : Reason) (f : BitVec 8) (d : BitVec 16) : (s.post o k x r f d).wc = s.wc := rfl
@[simp] theorem post_su (o : Owner) (k : EventKind) (x : Nat) (r : Reason) (f : BitVec 8) (d : BitVec 16) : (s.post o k x r f d).su = s.su := rfl
@[simp] theorem post_hu (o : Owner) (k : EventKind) (x : Nat) (r : Reason) (f : BitVec 8) (d : BitVec 16) : (s.post o k x r f d).hu = s.hu := rfl
@[simp] theorem post_sc (o : Owner) (k : EventKind) (x : Nat) (r : Reason) (f : BitVec 8) (d : BitVec 16) : (s.post o k x r f d).sc = s.sc := rfl
@[simp] theorem post_resetN (o : Owner) (k : EventKind) (x : Nat) (r : Reason) (f : BitVec 8) (d : BitVec 16) : (s.post o k x r f d).resetN = s.resetN := rfl
@[simp] theorem post_free (o : Owner) (k : EventKind) (x : Nat) (r : Reason) (f : BitVec 8) (d : BitVec 16) : (s.post o k x r f d).free = s.free := rfl
@[simp] theorem post_pending (o : Owner) (k : EventKind) (x : Nat) (r : Reason) (f : BitVec 8) (d : BitVec 16) : (s.post o k x r f d).pending = s.pending := rfl

/-! ### `dropLines` -/

@[simp] theorem dropLines_tb : (s.dropLines).tb = s.tb := rfl
@[simp] theorem dropLines_ct : (s.dropLines).ct = s.ct := rfl
@[simp] theorem dropLines_rt : (s.dropLines).rt = s.rt := rfl
@[simp] theorem dropLines_arb : (s.dropLines).arb = s.arb := rfl
@[simp] theorem dropLines_su : (s.dropLines).su = s.su := rfl
@[simp] theorem dropLines_hu : (s.dropLines).hu = s.hu := rfl
@[simp] theorem dropLines_sc : (s.dropLines).sc = s.sc := rfl
@[simp] theorem dropLines_pi : (s.dropLines).pi = s.pi := rfl
@[simp] theorem dropLines_resetN : (s.dropLines).resetN = s.resetN := rfl
@[simp] theorem dropLines_free : (s.dropLines).free = s.free := rfl
@[simp] theorem dropLines_pending : (s.dropLines).pending = s.pending := rfl

/-! ### `refreshWindows` -/

@[simp] theorem refreshWindows_tb : (s.refreshWindows).tb = s.tb := rfl
@[simp] theorem refreshWindows_ct : (s.refreshWindows).ct = s.ct := rfl
@[simp] theorem refreshWindows_rt : (s.refreshWindows).rt = s.rt := rfl
@[simp] theorem refreshWindows_arb : (s.refreshWindows).arb = s.arb := rfl
@[simp] theorem refreshWindows_su : (s.refreshWindows).su = s.su := rfl
@[simp] theorem refreshWindows_hu : (s.refreshWindows).hu = s.hu := rfl
@[simp] theorem refreshWindows_sc : (s.refreshWindows).sc = s.sc := rfl
@[simp] theorem refreshWindows_pi : (s.refreshWindows).pi = s.pi := rfl
@[simp] theorem refreshWindows_resetN : (s.refreshWindows).resetN = s.resetN := rfl
@[simp] theorem refreshWindows_free : (s.refreshWindows).free = s.free := rfl
@[simp] theorem refreshWindows_pending : (s.refreshWindows).pending = s.pending := rfl

/-! ### `passToken` -/

@[simp] theorem passToken_tb (c : Nat) (o : Owner) : (s.passToken c o).tb = s.tb := rfl
@[simp] theorem passToken_ct (c : Nat) (o : Owner) : (s.passToken c o).ct = s.ct := rfl
@[simp] theorem passToken_rt (c : Nat) (o : Owner) : (s.passToken c o).rt = s.rt := rfl
@[simp] theorem passToken_wc (c : Nat) (o : Owner) : (s.passToken c o).wc = s.wc := rfl
@[simp] theorem passToken_su (c : Nat) (o : Owner) : (s.passToken c o).su = s.su := rfl
@[simp] theorem passToken_hu (c : Nat) (o : Owner) : (s.passToken c o).hu = s.hu := rfl
@[simp] theorem passToken_sc (c : Nat) (o : Owner) : (s.passToken c o).sc = s.sc := rfl
@[simp] theorem passToken_pi (c : Nat) (o : Owner) : (s.passToken c o).pi = s.pi := rfl
@[simp] theorem passToken_resetN (c : Nat) (o : Owner) : (s.passToken c o).resetN = s.resetN := rfl
@[simp] theorem passToken_free (c : Nat) (o : Owner) : (s.passToken c o).free = s.free := rfl
@[simp] theorem passToken_pending (c : Nat) (o : Owner) : (s.passToken c o).pending = s.pending := rfl

/-! ### `clearTriggers` -/

@[simp] theorem clearTriggers_tb (o : Owner) : (s.clearTriggers o).tb = s.tb := rfl
@[simp] theorem clearTriggers_rt (o : Owner) : (s.clearTriggers o).rt = s.rt := rfl
@[simp] theorem clearTriggers_arb (o : Owner) : (s.clearTriggers o).arb = s.arb := rfl
@[simp] theorem clearTriggers_wc (o : Owner) : (s.clearTriggers o).wc = s.wc := rfl
@[simp] theorem clearTriggers_su (o : Owner) : (s.clearTriggers o).su = s.su := rfl
@[simp] theorem clearTriggers_hu (o : Owner) : (s.clearTriggers o).hu = s.hu := rfl
@[simp] theorem clearTriggers_sc (o : Owner) : (s.clearTriggers o).sc = s.sc := rfl
@[simp] theorem clearTriggers_pi (o : Owner) : (s.clearTriggers o).pi = s.pi := rfl
@[simp] theorem clearTriggers_resetN (o : Owner) : (s.clearTriggers o).resetN = s.resetN := rfl
@[simp] theorem clearTriggers_free (o : Owner) : (s.clearTriggers o).free = s.free := rfl
@[simp] theorem clearTriggers_pending (o : Owner) : (s.clearTriggers o).pending = s.pending := rfl

/-! ### `emptyCapture` -/

@[simp] theorem emptyCapture_ct (o : Owner) : (s.emptyCapture o).ct = s.ct := rfl
@[simp] theorem emptyCapture_rt (o : Owner) : (s.emptyCapture o).rt = s.rt := rfl
@[simp] theorem emptyCapture_arb (o : Owner) : (s.emptyCapture o).arb = s.arb := rfl
@[simp] theorem emptyCapture_wc (o : Owner) : (s.emptyCapture o).wc = s.wc := rfl
@[simp] theorem emptyCapture_su (o : Owner) : (s.emptyCapture o).su = s.su := rfl
@[simp] theorem emptyCapture_hu (o : Owner) : (s.emptyCapture o).hu = s.hu := rfl
@[simp] theorem emptyCapture_sc (o : Owner) : (s.emptyCapture o).sc = s.sc := rfl
@[simp] theorem emptyCapture_pi (o : Owner) : (s.emptyCapture o).pi = s.pi := rfl
@[simp] theorem emptyCapture_resetN (o : Owner) : (s.emptyCapture o).resetN = s.resetN := rfl
@[simp] theorem emptyCapture_free (o : Owner) : (s.emptyCapture o).free = s.free := rfl
@[simp] theorem emptyCapture_pending (o : Owner) : (s.emptyCapture o).pending = s.pending := rfl

/-! ### `clearSpanShort` -/

@[simp] theorem clearSpanShort_tb : (s.clearSpanShort).tb = s.tb := rfl
@[simp] theorem clearSpanShort_ct : (s.clearSpanShort).ct = s.ct := rfl
@[simp] theorem clearSpanShort_rt : (s.clearSpanShort).rt = s.rt := rfl
@[simp] theorem clearSpanShort_arb : (s.clearSpanShort).arb = s.arb := rfl
@[simp] theorem clearSpanShort_wc : (s.clearSpanShort).wc = s.wc := rfl
@[simp] theorem clearSpanShort_su : (s.clearSpanShort).su = s.su := rfl
@[simp] theorem clearSpanShort_hu : (s.clearSpanShort).hu = s.hu := rfl
@[simp] theorem clearSpanShort_pi : (s.clearSpanShort).pi = s.pi := rfl
@[simp] theorem clearSpanShort_resetN : (s.clearSpanShort).resetN = s.resetN := rfl
@[simp] theorem clearSpanShort_free : (s.clearSpanShort).free = s.free := rfl
@[simp] theorem clearSpanShort_pending : (s.clearSpanShort).pending = s.pending := rfl

/-! ### `startCalibration` -/

@[simp] theorem startCalibration_ct (auto : Bool) : (s.startCalibration auto).ct = s.ct := rfl
@[simp] theorem startCalibration_rt (auto : Bool) : (s.startCalibration auto).rt = s.rt := rfl
@[simp] theorem startCalibration_arb (auto : Bool) : (s.startCalibration auto).arb = s.arb := rfl
@[simp] theorem startCalibration_wc (auto : Bool) : (s.startCalibration auto).wc = s.wc := rfl
@[simp] theorem startCalibration_su (auto : Bool) : (s.startCalibration auto).su = s.su := rfl
@[simp] theorem startCalibration_hu (auto : Bool) : (s.startCalibration auto).hu = s.hu := rfl
@[simp] theorem startCalibration_pi (auto : Bool) : (s.startCalibration auto).pi = s.pi := rfl
@[simp] theorem startCalibration_resetN (auto : Bool) : (s.startCalibration auto).resetN = s.resetN := rfl
@[simp] theorem startCalibration_free (auto : Bool) : (s.startCalibration auto).free = s.free := rfl
@[simp] theorem startCalibration_pending (auto : Bool) : (s.startCalibration auto).pending = s.pending := rfl

/-! ### `advanceLt` -/

@[simp] theorem advanceLt_ct (x : SleepHand) (n : Nat) : (s.advanceLt x n).ct = s.ct := rfl
@[simp] theorem advanceLt_rt (x : SleepHand) (n : Nat) : (s.advanceLt x n).rt = s.rt := rfl
@[simp] theorem advanceLt_arb (x : SleepHand) (n : Nat) : (s.advanceLt x n).arb = s.arb := rfl
@[simp] theorem advanceLt_wc (x : SleepHand) (n : Nat) : (s.advanceLt x n).wc = s.wc := rfl
@[simp] theorem advanceLt_su (x : SleepHand) (n : Nat) : (s.advanceLt x n).su = s.su := rfl
@[simp] theorem advanceLt_hu (x : SleepHand) (n : Nat) : (s.advanceLt x n).hu = s.hu := rfl
@[simp] theorem advanceLt_sc (x : SleepHand) (n : Nat) : (s.advanceLt x n).sc = s.sc := rfl
@[simp] theorem advanceLt_pi (x : SleepHand) (n : Nat) : (s.advanceLt x n).pi = s.pi := rfl
@[simp] theorem advanceLt_resetN (x : SleepHand) (n : Nat) : (s.advanceLt x n).resetN = s.resetN := rfl
@[simp] theorem advanceLt_free (x : SleepHand) (n : Nat) : (s.advanceLt x n).free = s.free := rfl
@[simp] theorem advanceLt_pending (x : SleepHand) (n : Nat) : (s.advanceLt x n).pending = s.pending := rfl

/-! ### `writeProfile` -/

@[simp] theorem writeProfile_tb (o : Owner) (i : Nat) (f : Profile) : (s.writeProfile o i f).tb = s.tb := rfl
@[simp] theorem writeProfile_ct (o : Owner) (i : Nat) (f : Profile) : (s.writeProfile o i f).ct = s.ct := rfl
@[simp] theorem writeProfile_rt (o : Owner) (i : Nat) (f : Profile) : (s.writeProfile o i f).rt = s.rt := rfl
@[simp] theorem writeProfile_arb (o : Owner) (i : Nat) (f : Profile) : (s.writeProfile o i f).arb = s.arb := rfl
@[simp] theorem writeProfile_su (o : Owner) (i : Nat) (f : Profile) : (s.writeProfile o i f).su = s.su := rfl
@[simp] theorem writeProfile_hu (o : Owner) (i : Nat) (f : Profile) : (s.writeProfile o i f).hu = s.hu := rfl
@[simp] theorem writeProfile_sc (o : Owner) (i : Nat) (f : Profile) : (s.writeProfile o i f).sc = s.sc := rfl
@[simp] theorem writeProfile_pi (o : Owner) (i : Nat) (f : Profile) : (s.writeProfile o i f).pi = s.pi := rfl
@[simp] theorem writeProfile_resetN (o : Owner) (i : Nat) (f : Profile) : (s.writeProfile o i f).resetN = s.resetN := rfl
@[simp] theorem writeProfile_free (o : Owner) (i : Nat) (f : Profile) : (s.writeProfile o i f).free = s.free := rfl
@[simp] theorem writeProfile_pending (o : Owner) (i : Nat) (f : Profile) : (s.writeProfile o i f).pending = s.pending := rfl

/-! ### `beginLoad` -/

@[simp] theorem beginLoad_tb (h : Nat) (r : Record) : (s.beginLoad h r).tb = s.tb := rfl
@[simp] theorem beginLoad_ct (h : Nat) (r : Record) : (s.beginLoad h r).ct = s.ct := rfl
@[simp] theorem beginLoad_rt (h : Nat) (r : Record) : (s.beginLoad h r).rt = s.rt := rfl
@[simp] theorem beginLoad_arb (h : Nat) (r : Record) : (s.beginLoad h r).arb = s.arb := rfl
@[simp] theorem beginLoad_su (h : Nat) (r : Record) : (s.beginLoad h r).su = s.su := rfl
@[simp] theorem beginLoad_hu (h : Nat) (r : Record) : (s.beginLoad h r).hu = s.hu := rfl
@[simp] theorem beginLoad_sc (h : Nat) (r : Record) : (s.beginLoad h r).sc = s.sc := rfl
@[simp] theorem beginLoad_pi (h : Nat) (r : Record) : (s.beginLoad h r).pi = s.pi := rfl
@[simp] theorem beginLoad_resetN (h : Nat) (r : Record) : (s.beginLoad h r).resetN = s.resetN := rfl
@[simp] theorem beginLoad_free (h : Nat) (r : Record) : (s.beginLoad h r).free = s.free := rfl
@[simp] theorem beginLoad_pending (h : Nat) (r : Record) : (s.beginLoad h r).pending = s.pending := rfl

/-! ### `openTransaction` -/

@[simp] theorem openTransaction_tb (p : Port) : (s.openTransaction p).tb = s.tb := rfl
@[simp] theorem openTransaction_ct (p : Port) : (s.openTransaction p).ct = s.ct := rfl
@[simp] theorem openTransaction_rt (p : Port) : (s.openTransaction p).rt = s.rt := rfl
@[simp] theorem openTransaction_arb (p : Port) : (s.openTransaction p).arb = s.arb := rfl
@[simp] theorem openTransaction_wc (p : Port) : (s.openTransaction p).wc = s.wc := rfl
@[simp] theorem openTransaction_su (p : Port) : (s.openTransaction p).su = s.su := rfl
@[simp] theorem openTransaction_hu (p : Port) : (s.openTransaction p).hu = s.hu := rfl
@[simp] theorem openTransaction_sc (p : Port) : (s.openTransaction p).sc = s.sc := rfl
@[simp] theorem openTransaction_resetN (p : Port) : (s.openTransaction p).resetN = s.resetN := rfl
@[simp] theorem openTransaction_free (p : Port) : (s.openTransaction p).free = s.free := rfl
@[simp] theorem openTransaction_pending (p : Port) : (s.openTransaction p).pending = s.pending := rfl

/-! ### Updates of an entry that may be absent -/

@[simp] theorem updateCell_tb (i : Nat) (g : Cell → Cell) : (s.updateCell i g).tb = s.tb := by
  unfold State.updateCell; split <;> rfl

@[simp] theorem updateCell_rt (i : Nat) (g : Cell → Cell) : (s.updateCell i g).rt = s.rt := by
  unfold State.updateCell; split <;> rfl

@[simp] theorem updateCell_arb (i : Nat) (g : Cell → Cell) : (s.updateCell i g).arb = s.arb := by
  unfold State.updateCell; split <;> rfl

@[simp] theorem updateCell_wc (i : Nat) (g : Cell → Cell) : (s.updateCell i g).wc = s.wc := by
  unfold State.updateCell; split <;> rfl

@[simp] theorem updateCell_su (i : Nat) (g : Cell → Cell) : (s.updateCell i g).su = s.su := by
  unfold State.updateCell; split <;> rfl

@[simp] theorem updateCell_hu (i : Nat) (g : Cell → Cell) : (s.updateCell i g).hu = s.hu := by
  unfold State.updateCell; split <;> rfl

@[simp] theorem updateCell_sc (i : Nat) (g : Cell → Cell) : (s.updateCell i g).sc = s.sc := by
  unfold State.updateCell; split <;> rfl

@[simp] theorem updateCell_pi (i : Nat) (g : Cell → Cell) : (s.updateCell i g).pi = s.pi := by
  unfold State.updateCell; split <;> rfl

@[simp] theorem updateCell_resetN (i : Nat) (g : Cell → Cell) : (s.updateCell i g).resetN = s.resetN := by
  unfold State.updateCell; split <;> rfl

@[simp] theorem updateCell_free (i : Nat) (g : Cell → Cell) : (s.updateCell i g).free = s.free := by
  unfold State.updateCell; split <;> rfl

@[simp] theorem updateCell_pending (i : Nat) (g : Cell → Cell) : (s.updateCell i g).pending = s.pending := by
  unfold State.updateCell; split <;> rfl

@[simp] theorem updateRecord_tb (h : Nat) (g : Record → Record) : (s.updateRecord h g).tb = s.tb := by
  unfold State.updateRecord; split <;> rfl

@[simp] theorem updateRecord_ct (h : Nat) (g : Record → Record) : (s.updateRecord h g).ct = s.ct := by
  unfold State.updateRecord; split <;> rfl

@[simp] theorem updateRecord_arb (h : Nat) (g : Record → Record) : (s.updateRecord h g).arb = s.arb := by
  unfold State.updateRecord; split <;> rfl

@[simp] theorem updateRecord_wc (h : Nat) (g : Record → Record) : (s.updateRecord h g).wc = s.wc := by
  unfold State.updateRecord; split <;> rfl

@[simp] theorem updateRecord_su (h : Nat) (g : Record → Record) : (s.updateRecord h g).su = s.su := by
  unfold State.updateRecord; split <;> rfl

@[simp] theorem updateRecord_hu (h : Nat) (g : Record → Record) : (s.updateRecord h g).hu = s.hu := by
  unfold State.updateRecord; split <;> rfl

@[simp] theorem updateRecord_sc (h : Nat) (g : Record → Record) : (s.updateRecord h g).sc = s.sc := by
  unfold State.updateRecord; split <;> rfl

@[simp] theorem updateRecord_pi (h : Nat) (g : Record → Record) : (s.updateRecord h g).pi = s.pi := by
  unfold State.updateRecord; split <;> rfl

@[simp] theorem updateRecord_resetN (h : Nat) (g : Record → Record) : (s.updateRecord h g).resetN = s.resetN := by
  unfold State.updateRecord; split <;> rfl

@[simp] theorem updateRecord_free (h : Nat) (g : Record → Record) : (s.updateRecord h g).free = s.free := by
  unfold State.updateRecord; split <;> rfl

@[simp] theorem updateRecord_pending (h : Nat) (g : Record → Record) : (s.updateRecord h g).pending = s.pending := by
  unfold State.updateRecord; split <;> rfl

@[simp] theorem updateOcc_tb (h : Nat) (g : Occurrence → Occurrence) : (s.updateOcc h g).tb = s.tb := by
  unfold State.updateOcc State.updateRecord; split <;> rfl

@[simp] theorem updateOcc_ct (h : Nat) (g : Occurrence → Occurrence) : (s.updateOcc h g).ct = s.ct := by
  unfold State.updateOcc State.updateRecord; split <;> rfl

@[simp] theorem updateOcc_arb (h : Nat) (g : Occurrence → Occurrence) : (s.updateOcc h g).arb = s.arb := by
  unfold State.updateOcc State.updateRecord; split <;> rfl

@[simp] theorem updateOcc_wc (h : Nat) (g : Occurrence → Occurrence) : (s.updateOcc h g).wc = s.wc := by
  unfold State.updateOcc State.updateRecord; split <;> rfl

@[simp] theorem updateOcc_su (h : Nat) (g : Occurrence → Occurrence) : (s.updateOcc h g).su = s.su := by
  unfold State.updateOcc State.updateRecord; split <;> rfl

@[simp] theorem updateOcc_hu (h : Nat) (g : Occurrence → Occurrence) : (s.updateOcc h g).hu = s.hu := by
  unfold State.updateOcc State.updateRecord; split <;> rfl

@[simp] theorem updateOcc_sc (h : Nat) (g : Occurrence → Occurrence) : (s.updateOcc h g).sc = s.sc := by
  unfold State.updateOcc State.updateRecord; split <;> rfl

@[simp] theorem updateOcc_pi (h : Nat) (g : Occurrence → Occurrence) : (s.updateOcc h g).pi = s.pi := by
  unfold State.updateOcc State.updateRecord; split <;> rfl

@[simp] theorem updateOcc_resetN (h : Nat) (g : Occurrence → Occurrence) : (s.updateOcc h g).resetN = s.resetN := by
  unfold State.updateOcc State.updateRecord; split <;> rfl

@[simp] theorem updateOcc_free (h : Nat) (g : Occurrence → Occurrence) : (s.updateOcc h g).free = s.free := by
  unfold State.updateOcc State.updateRecord; split <;> rfl

@[simp] theorem updateOcc_pending (h : Nat) (g : Occurrence → Occurrence) : (s.updateOcc h g).pending = s.pending := by
  unfold State.updateOcc State.updateRecord; split <;> rfl

@[simp] theorem updateExchange_tb (i : Nat) (g : Exchange → Exchange) : (s.updateExchange i g).tb = s.tb := by
  unfold State.updateExchange; split <;> rfl

@[simp] theorem updateExchange_ct (i : Nat) (g : Exchange → Exchange) : (s.updateExchange i g).ct = s.ct := by
  unfold State.updateExchange; split <;> rfl

@[simp] theorem updateExchange_rt (i : Nat) (g : Exchange → Exchange) : (s.updateExchange i g).rt = s.rt := by
  unfold State.updateExchange; split <;> rfl

@[simp] theorem updateExchange_arb (i : Nat) (g : Exchange → Exchange) : (s.updateExchange i g).arb = s.arb := by
  unfold State.updateExchange; split <;> rfl

@[simp] theorem updateExchange_wc (i : Nat) (g : Exchange → Exchange) : (s.updateExchange i g).wc = s.wc := by
  unfold State.updateExchange; split <;> rfl

@[simp] theorem updateExchange_hu (i : Nat) (g : Exchange → Exchange) : (s.updateExchange i g).hu = s.hu := by
  unfold State.updateExchange; split <;> rfl

@[simp] theorem updateExchange_sc (i : Nat) (g : Exchange → Exchange) : (s.updateExchange i g).sc = s.sc := by
  unfold State.updateExchange; split <;> rfl

@[simp] theorem updateExchange_pi (i : Nat) (g : Exchange → Exchange) : (s.updateExchange i g).pi = s.pi := by
  unfold State.updateExchange; split <;> rfl

@[simp] theorem updateExchange_resetN (i : Nat) (g : Exchange → Exchange) : (s.updateExchange i g).resetN = s.resetN := by
  unfold State.updateExchange; split <;> rfl

@[simp] theorem updateExchange_free (i : Nat) (g : Exchange → Exchange) : (s.updateExchange i g).free = s.free := by
  unfold State.updateExchange; split <;> rfl

@[simp] theorem updateExchange_pending (i : Nat) (g : Exchange → Exchange) : (s.updateExchange i g).pending = s.pending := by
  unfold State.updateExchange; split <;> rfl

end Sys2Proof.Machine
end

