-- ==== Sys2Proof/Laws/Tables.lean ====
section
/-!
SUPPORT. What reading a table, a port or a session gives after each write, and the members of the lists that walk a
table.
-/

namespace Sys2Proof.Machine

/-! ### One value per owner or port -/

@[simp] theorem PerOwner.get_set {α : Type} (x : PerOwner α) (o u : Owner) (v : α) :
    (x.set o v).get u = if u = o then v else x.get u := by
  cases o <;> cases u <;> rfl

@[simp] theorem PerPort.get_set {α : Type} (x : PerPort α) (p q : Port) (v : α) :
    (x.set p v).get q = if q = p then v else x.get q := by
  cases p <;> cases q <;> rfl

theorem PerPort.set_get_self {α : Type} (x : PerPort α) (p : Port) : x.set p (x.get p) = x := by
  cases p <;> rfl

@[simp] theorem port_setPort (s : State) (p q : Port) (x : PortState) :
    (s.setPort p x).port q = if q = p then x else s.port q := PerPort.get_set s.pi p q x

theorem setPort_port (s : State) (p : Port) : s.setPort p (s.port p) = s := by
  cases p <;> rfl

@[simp] theorem setPort_setPort (s : State) (p : Port) (x y : PortState) :
    (s.setPort p x).setPort p y = s.setPort p y := by
  cases p <;> rfl

@[simp] theorem port_postPort (s : State) (p q : Port) (k : EventKind) (x : Nat) (r : Reason) (f : BitVec 8)
    (d : BitVec 16) :
    (s.postPort p k x r f d).port q = if q = p then (s.port p).push ⟨k, x, r, f, d, s.tb.lt⟩ else s.port q :=
  port_setPort s p q _

@[simp] theorem call?_setCall (s : State) (o u : Owner) (c : Option Call) :
    (s.setCall o c).call? u = if u = o then c else s.call? u := PerOwner.get_set s.su.calls o u c

@[simp] theorem handover?_setHandover (s : State) (o u : Owner) (h : Option Handover) :
    (s.setHandover o h).handover? u = if u = o then h else s.handover? u := PerOwner.get_set s.hu.records o u h

@[simp] theorem revert?_setRevert (s : State) (o u : Owner) (v : Option RevertWindow) :
    (s.setRevert o v).revert? u = if u = o then v else s.revert? u := PerOwner.get_set s.hu.windows o u v

/-! ### Tables -/

theorem getElem?_setIfInBounds {α : Type} {n : Nat} (v : Vector (Option α) n) (i j : Nat) (x : Option α) :
    ((v.setIfInBounds i x)[j]?).join = if j = i ∧ i < n then x else (v[j]?).join := by
  simp only [Vector.getElem?_setIfInBounds]
  grind

@[simp] theorem getElem?_mapTable {α : Type} {n : Nat} (v : Vector α n) (f : α → α) (i : Nat) :
    (mapTable v f)[i]? = v[i]?.map f := by
  rcases v with ⟨⟨l⟩, rfl⟩
  simp [mapTable, Vector.toList]

@[simp] theorem record?_setRecord (s : State) (h k : Nat) (r : Option Record) :
    (s.setRecord h r).record? k = if k = h ∧ h < 64 then r else s.record? k :=
  getElem?_setIfInBounds s.rt.records h k r

@[simp] theorem cell?_setCell (s : State) (i j : Nat) (c : Option Cell) :
    (s.setCell i c).cell? j = if j = i ∧ i < 24 then c else s.cell? j :=
  getElem?_setIfInBounds s.ct.cells i j c

@[simp] theorem exchange?_setExchange (s : State) (i j : Nat) (e : Option Exchange) :
    (s.setExchange i e).exchange? j = if j = i ∧ i < 4 then e else s.exchange? j :=
  getElem?_setIfInBounds s.su.exchanges i j e

theorem record?_lt (s : State) (h : Nat) (r : Record) (hr : s.record? h = some r) : h < 64 := by
  unfold State.record? at hr
  grind

theorem cell?_lt (s : State) (i : Nat) (c : Cell) (hc : s.cell? i = some c) : i < 24 := by
  unfold State.cell? at hc
  grind

theorem exchange?_lt (s : State) (i : Nat) (e : Exchange) (he : s.exchange? i = some e) : i < 4 := by
  unfold State.exchange? at he
  grind

@[simp] theorem record?_updateRecord (s : State) (h k : Nat) (g : Record → Record) :
    (s.updateRecord h g).record? k = if k = h then (s.record? h).map g else s.record? k := by
  unfold State.updateRecord
  split
  · rename_i r hr
    have := record?_lt s h r hr
    simp only [record?_setRecord, hr]
    grind
  · grind

@[simp] theorem record?_updateOcc (s : State) (h k : Nat) (g : Occurrence → Occurrence) :
    (s.updateOcc h g).record? k =
      if k = h then (s.record? h).map (fun r => { r with occ := g r.occ }) else s.record? k :=
  record?_updateRecord s h k _

@[simp] theorem cell?_updateCell (s : State) (i j : Nat) (g : Cell → Cell) :
    (s.updateCell i g).cell? j = if j = i then (s.cell? i).map g else s.cell? j := by
  unfold State.updateCell
  split
  · rename_i c hc
    have := cell?_lt s i c hc
    simp only [cell?_setCell, hc]
    grind
  · grind

@[simp] theorem exchange?_updateExchange (s : State) (i j : Nat) (g : Exchange → Exchange) :
    (s.updateExchange i g).exchange? j = if j = i then (s.exchange? i).map g else s.exchange? j := by
  unfold State.updateExchange
  split
  · rename_i e he
    have := exchange?_lt s i e he
    simp only [exchange?_setExchange, he]
    grind
  · grind

/-! ### Lists over a table -/

theorem mem_tableList {α : Type} {n : Nat} (v : Vector (Option α) n) (i : Nat) (x : α) :
    (i, x) ∈ tableList v ↔ (v[i]?).join = some x := by
  rcases v with ⟨⟨l⟩, rfl⟩
  simp [tableList, Vector.toList, List.mem_zipIdx_iff_getElem?]
  grind

theorem mem_recordList (s : State) (h : Nat) (r : Record) : (h, r) ∈ s.recordList ↔ s.record? h = some r :=
  mem_tableList s.rt.records h r

theorem mem_cellList (s : State) (i : Nat) (c : Cell) : (i, c) ∈ s.cellList ↔ s.cell? i = some c :=
  mem_tableList s.ct.cells i c

theorem mem_exchangeList (s : State) (i : Nat) (e : Exchange) : (i, e) ∈ s.exchangeList ↔ s.exchange? i = some e :=
  mem_tableList s.su.exchanges i e

/-- The lowest absent index is in the table and absent, and every lower one is present. -/
theorem lowestFree_spec {α : Type} {n : Nat} (v : Vector (Option α) n) (i : Nat) (h : lowestFree v = some i) :
    i < n ∧ (v[i]?).join = none ∧ ∀ j, j < i → (v[j]?).join ≠ none := by
  have hv : ∀ j : Nat, v[j]? = v.toList[j]? := fun j => by simp
  have hn : v.toList.length = n := by simp
  unfold lowestFree at h
  simp only [hv]
  generalize v.toList = l at hn h ⊢
  simp only [Option.map_eq_some_iff, List.find?_eq_some_iff_append] at h
  obtain ⟨⟨y, j⟩, ⟨hy, as, bs, hl, hno⟩, rfl⟩ := h
  have at' : ∀ k : Nat, (l.zipIdx)[k]? = l[k]?.map (fun x => (x, k)) := fun k => by simp
  have hlen : as.length = j ∧ l[j]? = some y := by
    have h1 : (l.zipIdx)[as.length]? = some (y, j) := by simp [hl]
    rw [at'] at h1
    grind
  have hy : y = none := by simpa using hy
  refine ⟨?_, by simp [hlen.2, hy], ?_⟩
  · have hj : j < l.length := (List.getElem?_eq_some_iff.mp hlen.2).1
    exact hn ▸ hj
  · intro k hk
    have h3 : k < as.length := by have := hlen.1; simp at hk; omega
    have h4 := hno as[k] (List.getElem_mem h3)
    have h2 : (l.zipIdx)[k]? = some as[k] := by rw [hl, List.getElem?_append_left h3, List.getElem?_eq_getElem h3]
    rw [at', Option.map_eq_some_iff] at h2
    obtain ⟨x, hx, hxk⟩ := h2
    rw [← hxk] at h4
    cases x <;> simp_all

end Sys2Proof.Machine
end

