-- ==== Sys2Proof/Laws/Timeline.lean ====
section
/-!
SUPPORT. The timeline as a set of windows: its members are the records in the three states of R40, and its ACTIVE window
is an ACTIVE record.
-/

namespace Sys2Proof.Machine

theorem mem_insertWindow (w x : Nat × Record) (l : List (Nat × Record)) :
    x ∈ insertWindow w l ↔ x = w ∨ x ∈ l := by
  induction l with
  | nil => simp [insertWindow]
  | cons y ys ih =>
    unfold insertWindow
    split
    · simp only [List.mem_cons, ih]; grind
    · simp

/-- The timeline holds exactly the records in GRANTED, ACTIVE or SUSPENDED (R40). -/
theorem mem_timeline (s : State) (h : Nat) (r : Record) :
    (h, r) ∈ s.timeline ↔ s.record? h = some r ∧ r.occ.state.inTimeline = true := by
  unfold State.timeline
  have key : ∀ l : List (Nat × Record), (h, r) ∈ l.foldr insertWindow [] ↔ (h, r) ∈ l := by
    intro l
    induction l with
    | nil => simp
    | cons y ys ih => simp only [List.foldr_cons, mem_insertWindow, ih, List.mem_cons]
  rw [key, List.mem_filter, mem_recordList]

theorem active?_some (s : State) (h : Nat) (r : Record) (ha : s.active? = some (h, r)) :
    s.record? h = some r ∧ r.occ.state = .active := by
  unfold State.active? at ha
  have hm := (mem_timeline s h r).mp (List.mem_of_find?_eq_some ha)
  have hs := List.find?_some ha
  exact ⟨hm.1, by simpa using hs⟩

theorem active?_eq_none (s : State) : s.active? = none ↔ ∀ h r, s.record? h = some r → r.occ.state ≠ .active := by
  unfold State.active?
  rw [List.find?_eq_none]
  constructor
  · intro hx h r hr ha
    have := hx (h, r) ((mem_timeline s h r).mpr ⟨hr, by simp [ha, OccState.inTimeline]⟩)
    simp [ha] at this
  · rintro hx ⟨h, r⟩ hm
    have := hx h r ((mem_timeline s h r).mp hm).1
    simpa using this

theorem active?_isSome (s : State) :
    s.active?.isSome = true ↔ ∃ h r, s.record? h = some r ∧ r.occ.state = .active := by
  rw [Option.isSome_iff_ne_none, ne_eq, active?_eq_none]
  grind

theorem nextUp?_some (s : State) (h : Nat) (r : Record) (ha : s.nextUp? = some (h, r)) :
    s.record? h = some r ∧ r.occ.state.inTimeline = true ∧ r.occ.state ≠ .active := by
  unfold State.nextUp? at ha
  have hm := (mem_timeline s h r).mp (List.mem_of_find?_eq_some ha)
  have hs := List.find?_some ha
  exact ⟨hm.1, hm.2, by simpa using hs⟩

/-- The timeline depends on the records alone. -/
theorem timeline_congr (s t : State) (h : t.rt = s.rt) : t.timeline = s.timeline := by
  unfold State.timeline State.recordList
  rw [h]

theorem active?_congr (s t : State) (h : t.rt = s.rt) : t.active? = s.active? := by
  unfold State.active?
  rw [timeline_congr s t h]

theorem record?_congr (s t : State) (h : t.rt = s.rt) (k : Nat) : t.record? k = s.record? k := by
  unfold State.record?
  rw [h]

theorem cell?_congr (s t : State) (h : t.ct = s.ct) (k : Nat) : t.cell? k = s.cell? k := by
  unfold State.cell?
  rw [h]

end Sys2Proof.Machine
end

