-- ==== Sys2Proof/Laws/Planned.lean ====
section
/-!
SUPPORT. What planning can do to the state. `Planned s t` says, once for every operation of RT, ARB and SU and for the
whole cascade of a step, what it leaves alone and how far it may go: time, sleep, handover, policy, profiles and link
stay; window lines only fall; no window becomes ACTIVE; ports only gain events; cells change in their reference count
alone.
-/

namespace Sys2Proof.Machine

/-- What posting events can do to a port (R182, R183). -/
structure PortState.Grew (x y : PortState) : Prop where
  enabled : y.enabled = x.enabled
  slot : y.slot = x.slot
  buffer : y.buffer = x.buffer
  vote : y.vote = x.vote
  transaction : y.transaction = x.transaction
  collision : y.flags.collision = x.flags.collision
  frameError : y.flags.frameError = x.flags.frameError
  queue : x.queue <+: y.queue
  bounded : x.queue.length ≤ 16 → y.queue.length ≤ 16
  counted : x.overflowCount ≤ 255 → y.overflowCount ≤ 255
  out : x.enabled = false → y = x

theorem PortState.Grew.refl (x : PortState) : x.Grew x :=
  ⟨rfl, rfl, rfl, rfl, rfl, rfl, rfl, List.prefix_refl _, id, id, fun _ => rfl⟩

theorem PortState.Grew.trans {x y z : PortState} (a : x.Grew y) (b : y.Grew z) : x.Grew z where
  enabled := b.enabled.trans a.enabled
  slot := b.slot.trans a.slot
  buffer := b.buffer.trans a.buffer
  vote := b.vote.trans a.vote
  transaction := b.transaction.trans a.transaction
  collision := b.collision.trans a.collision
  frameError := b.frameError.trans a.frameError
  queue := a.queue.trans b.queue
  bounded := fun h => b.bounded (a.bounded h)
  counted := fun h => b.counted (a.counted h)
  out := fun h => (b.out (a.enabled.trans h)).trans (a.out h)

/-- Posting one event (R182, R183). -/
theorem PortState.push_grew (x : PortState) (e : Event) : x.Grew (x.push e) := by
  unfold PortState.push
  split
  · split
    · refine ⟨rfl, rfl, rfl, rfl, rfl, rfl, rfl, List.prefix_append _ _, ?_, id, ?_⟩ <;> simp_all <;> omega
    · refine ⟨rfl, rfl, rfl, rfl, rfl, rfl, rfl, List.prefix_refl _, id, ?_, ?_⟩ <;> simp_all <;> omega
  · exact PortState.Grew.refl x

/-- A cell but for its reference count. -/
def Cell.unreferenced (c : Cell) : Cell := { c with refCount := 0 }

structure Planned (s t : State) : Prop where
  tb : t.tb = s.tb
  sc : t.sc = s.sc
  hu : t.hu = s.hu
  resetN : t.resetN = s.resetN
  pending : t.pending = s.pending
  triggers : t.ct.triggers = s.ct.triggers
  cells : ∀ i, (t.cell? i).map Cell.unreferenced = (s.cell? i).map Cell.unreferenced
  t1 : t.arb.t1 = s.arb.t1
  t2 : t.arb.t2 = s.arb.t2
  t3 : t.arb.t3 = s.arb.t3
  guard : t.arb.guard = s.arb.guard
  profiles : t.wc.profiles = s.wc.profiles
  lastLoaded : t.wc.lastLoaded = s.wc.lastLoaded
  writtenSince : t.wc.writtenSince = s.wc.writtenSince
  sequence : t.wc.sequence = s.wc.sequence
  pendingWidening : t.wc.pendingWidening = s.wc.pendingWidening
  wakeLt : t.wc.wakeLt = s.wc.wakeLt
  rxEn : t.wc.rxEn = true → s.wc.rxEn = true
  txEn : t.wc.txEn = true → s.wc.txEn = true
  ports : ∀ p, (s.port p).Grew (t.port p)
  active : ∀ h r, t.record? h = some r → r.occ.state = .active →
    ∃ q, s.record? h = some q ∧ q.occ.state = .active

namespace Planned

theorem refl (s : State) : Planned s s :=
  ⟨rfl, rfl, rfl, rfl, rfl, rfl, fun _ => rfl, rfl, rfl, rfl, rfl, rfl, rfl, rfl, rfl, rfl, rfl, id, id,
    fun _ => PortState.Grew.refl _, fun _ r hr ha => ⟨r, hr, ha⟩⟩

theorem trans {s t u : State} (a : Planned s t) (b : Planned t u) : Planned s u where
  tb := b.tb.trans a.tb
  sc := b.sc.trans a.sc
  hu := b.hu.trans a.hu
  resetN := b.resetN.trans a.resetN
  pending := b.pending.trans a.pending
  triggers := b.triggers.trans a.triggers
  cells := fun i => (b.cells i).trans (a.cells i)
  t1 := b.t1.trans a.t1
  t2 := b.t2.trans a.t2
  t3 := b.t3.trans a.t3
  guard := b.guard.trans a.guard
  profiles := b.profiles.trans a.profiles
  lastLoaded := b.lastLoaded.trans a.lastLoaded
  writtenSince := b.writtenSince.trans a.writtenSince
  sequence := b.sequence.trans a.sequence
  pendingWidening := b.pendingWidening.trans a.pendingWidening
  wakeLt := b.wakeLt.trans a.wakeLt
  rxEn := fun h => a.rxEn (b.rxEn h)
  txEn := fun h => a.txEn (b.txEn h)
  ports := fun p => (a.ports p).trans (b.ports p)
  active := fun h r hr ha =>
    let ⟨q, hq, hqa⟩ := b.active h r hr ha
    a.active h q hq hqa

/-! ### The elementary updates -/

theorem postPort (s : State) (p : Port) (k : EventKind) (x : Nat) (r : Reason) (f : BitVec 8) (d : BitVec 16) :
    Planned s (s.postPort p k x r f d) where
  tb := rfl
  sc := rfl
  hu := rfl
  resetN := rfl
  pending := rfl
  triggers := rfl
  cells := fun _ => rfl
  t1 := rfl
  t2 := rfl
  t3 := rfl
  guard := rfl
  profiles := rfl
  lastLoaded := rfl
  writtenSince := rfl
  sequence := rfl
  pendingWidening := rfl
  wakeLt := rfl
  rxEn := id
  txEn := id
  ports := fun q => by
    rw [port_postPort]
    split
    · rename_i h
      exact h ▸ PortState.push_grew _ _
    · exact PortState.Grew.refl _
  active := fun _ r hr ha => ⟨r, hr, ha⟩

theorem post (s : State) (o : Owner) (k : EventKind) (x : Nat) (r : Reason) (f : BitVec 8) (d : BitVec 16) :
    Planned s (s.post o k x r f d) := postPort s o.port k x r f d

/-- Records written, with no window made ACTIVE that was not. -/
theorem records (s : State) (rt : ReservationTable)
    (h : ∀ k r, (rt.records[k]?).join = some r → r.occ.state = .active →
      ∃ q, s.record? k = some q ∧ q.occ.state = .active) : Planned s { s with rt := rt } :=
  ⟨rfl, rfl, rfl, rfl, rfl, rfl, fun _ => rfl, rfl, rfl, rfl, rfl, rfl, rfl, rfl, rfl, rfl, rfl, id, id,
    fun _ => PortState.Grew.refl _, h⟩

theorem setRecord_none (s : State) (h : Nat) : Planned s (s.setRecord h none) :=
  records s _ fun k r hr ha => by
    have hk : (s.setRecord h none).record? k = some r := hr
    rw [record?_setRecord] at hk
    grind

/-- A record written whose window is not ACTIVE. -/
theorem setRecord_some (s : State) (h : Nat) (r : Record) (hi : r.occ.state ≠ .active) :
    Planned s (s.setRecord h (some r)) :=
  records s _ fun k q hq ha => by
    have hk : (s.setRecord h (some r)).record? k = some q := hq
    rw [record?_setRecord] at hk
    grind

theorem updateRecord (s : State) (h : Nat) (g : Record → Record)
    (hg : ∀ r, (g r).occ.state = .active → r.occ.state = .active) : Planned s (s.updateRecord h g) := by
  unfold State.updateRecord
  split
  · rename_i r hr
    refine records s _ fun k q hq ha => ?_
    have hk : (s.setRecord h (some (g r))).record? k = some q := hq
    rw [record?_setRecord] at hk
    split at hk
    · have := hg r
      grind
    · exact ⟨q, hk, ha⟩
  · exact refl s

theorem updateOcc (s : State) (h : Nat) (g : Occurrence → Occurrence)
    (hg : ∀ x, (g x).state = .active → x.state = .active) : Planned s (s.updateOcc h g) :=
  updateRecord s h _ fun r => hg r.occ

theorem su (s : State) (u : SessionUnit) : Planned s { s with su := u } :=
  ⟨rfl, rfl, rfl, rfl, rfl, rfl, fun _ => rfl, rfl, rfl, rfl, rfl, rfl, rfl, rfl, rfl, rfl, rfl, id, id,
    fun _ => PortState.Grew.refl _, fun _ r hr ha => ⟨r, hr, ha⟩⟩

theorem setCall (s : State) (o : Owner) (c : Option Call) : Planned s (s.setCall o c) := su s _

theorem setExchange (s : State) (i : Nat) (e : Option Exchange) : Planned s (s.setExchange i e) := su s _

theorem updateExchange (s : State) (i : Nat) (g : Exchange → Exchange) : Planned s (s.updateExchange i g) := by
  unfold State.updateExchange
  split
  · exact setExchange s i _
  · exact refl s

theorem takeFree (s : State) : Planned s s.takeFree.2 :=
  ⟨rfl, rfl, rfl, rfl, rfl, rfl, fun _ => rfl, rfl, rfl, rfl, rfl, rfl, rfl, rfl, rfl, rfl, rfl, id, id,
    fun _ => PortState.Grew.refl _, fun _ r hr ha => ⟨r, hr, ha⟩⟩

theorem passToken (s : State) (c : Nat) (o : Owner) : Planned s (s.passToken c o) :=
  ⟨rfl, rfl, rfl, rfl, rfl, rfl, fun _ => rfl, rfl, rfl, rfl, rfl, rfl, rfl, rfl, rfl, rfl, rfl, id, id,
    fun _ => PortState.Grew.refl _, fun _ r hr ha => ⟨r, hr, ha⟩⟩

/-- WC's plan written: the next window, the window a load serves, last end; lines only fall. -/
theorem wc (s : State) (w : WindowController) (h1 : w.profiles = s.wc.profiles) (h2 : w.lastLoaded = s.wc.lastLoaded)
    (h3 : w.writtenSince = s.wc.writtenSince) (h4 : w.sequence = s.wc.sequence)
    (h5 : w.pendingWidening = s.wc.pendingWidening) (h6 : w.wakeLt = s.wc.wakeLt)
    (h7 : w.rxEn = true → s.wc.rxEn = true) (h8 : w.txEn = true → s.wc.txEn = true) :
    Planned s { s with wc := w } :=
  ⟨rfl, rfl, rfl, rfl, rfl, rfl, fun _ => rfl, rfl, rfl, rfl, rfl, h1, h2, h3, h4, h5, h6, h7, h8,
    fun _ => PortState.Grew.refl _, fun _ r hr ha => ⟨r, hr, ha⟩⟩

theorem dropLines (s : State) : Planned s s.dropLines := by
  refine wc s _ rfl rfl rfl rfl rfl rfl ?_ ?_ <;> simp

theorem refreshWindows (s : State) : Planned s s.refreshWindows := wc s _ rfl rfl rfl rfl rfl rfl id id

/-- A reference count changed. -/
theorem updateCell (s : State) (i : Nat) (g : Cell → Cell) (hg : ∀ c, (g c).unreferenced = c.unreferenced) :
    Planned s (s.updateCell i g) where
  tb := by simp
  sc := by simp
  hu := by simp
  resetN := by simp
  pending := by simp
  triggers := by unfold State.updateCell; split <;> rfl
  cells := fun j => by
    rw [cell?_updateCell]
    split
    · rename_i hj
      rw [hj]
      cases s.cell? i <;> simp [hg]
    · rfl
  t1 := by simp
  t2 := by simp
  t3 := by simp
  guard := by simp
  profiles := by simp
  lastLoaded := by simp
  writtenSince := by simp
  sequence := by simp
  pendingWidening := by simp
  wakeLt := by simp
  rxEn := by simp
  txEn := by simp
  ports := fun p => by
    have : (s.updateCell i g).port p = s.port p := by simp [State.port]
    rw [this]
    exact PortState.Grew.refl _
  active := fun h r hr ha => by
    rw [record?_congr s _ (by simp)] at hr
    exact ⟨r, hr, ha⟩

end Planned

end Sys2Proof.Machine
end

