-- ==== Sys2Proof/Laws/Cascade.lean ====
section
/-!
SUPPORT. Every operation of RT, ARB and SU, and the whole cascade of a step, is planning: one lemma per operation says
that it leads to a state `Planned` from the one it starts in.
-/

namespace Sys2Proof.Machine.Planned

variable (s : State) (w : Work)

/-! ### Windows and records -/

theorem postNotice (h : Nat) (r : Record) : Planned s (s.postNotice h r) := by
  unfold State.postNotice
  have h1 : Planned s (s.updateOcc h (fun x => { x with notice := none })) := updateOcc s h _ fun _ => id
  split
  · exact h1.trans (post _ _ _ _ _ _ _)
  · exact (h1.trans (takeFree _)).trans (post _ _ _ _ _ _ _)

theorem setNotice (h : Nat) : Planned s (s.setNotice h) := by
  unfold State.setNotice
  split
  · exact refl s
  · dsimp only
    split
    · exact updateOcc s h _ fun _ => id
    · exact postNotice s h _

theorem endPart (h : Nat) (at' : LocalTime) : Planned s (s.endPart h at') := by
  have h1 : ∀ g : Occurrence → Occurrence, (∀ x, (g x).state = .withdrawn) → Planned s (s.updateOcc h g) :=
    fun g hg => updateOcc s h g fun x hx => by rw [hg] at hx; cases hx
  unfold State.endPart
  exact ((h1 _ fun _ => rfl).trans (dropLines _)).trans (wc _ _ rfl rfl rfl rfl rfl rfl id id)

theorem postWindowEnd (h : Nat) (reason : Reason) (a b c : Bool) :
    Planned s (s.postWindowEnd h reason a b c) := by
  unfold State.postWindowEnd
  split
  · exact refl s
  · exact post _ _ _ _ _ _ _

theorem dropLink (h : Nat) (r : Record) : Planned s (s.dropLink h r) := by
  unfold State.dropLink
  split
  · exact refl s
  · split
    · exact refl s
    · exact setCall _ _ _
  · exact updateExchange _ _ _

theorem removeRecord (h : Nat) : Planned s (s.removeRecord h) := by
  unfold State.removeRecord
  split
  · exact refl s
  · rename_i r _
    have h1 : Planned s ((s.setRecord h none).dropLink h r) := (setRecord_none s h).trans (dropLink _ _ _)
    dsimp only
    split
    · exact h1.trans (updateCell _ _ _ fun _ => rfl)
    · exact h1

theorem exhaust (h : Nat) (e : Ending) : Planned w.st (w.exhaust h e).st := by
  unfold Work.exhaust
  split
  · exact refl _
  · have h1 := removeRecord w.st h
    dsimp only
    split
    · split
      · exact h1
      · exact h1.trans (post _ _ _ _ _ _ _)
    · exact h1
    · split
      · exact h1
      · split
        · exact (h1.trans (setCall _ _ _)).trans (post _ _ _ _ _ _ _)
        · exact h1

theorem then_exhaust {s : State} {w : Work} {h : Nat} {e : Ending} (a : Planned s w.st) :
    Planned s (w.exhaust h e).st :=
  a.trans (exhaust w h e)

/-! ### Sessions -/

theorem informCall (h : Nat) (r : Record) (k : Nat) (e : Ending) : Planned s (s.informCall h r k e) := by
  unfold State.informCall
  split
  · split
    · exact refl s
    · dsimp only
      split
      · split
        · exact ((setCall _ _ _).trans (post _ _ _ _ _ _ _)).trans (postPort _ _ _ _ _ _ _)
        · exact setCall _ _ _
      · exact setCall _ _ _
  · exact refl s

theorem answerYield (o : Owner) (ps : List Nat) : Planned s (s.answerYield o ps).1 := by
  unfold State.answerYield
  split
  · exact refl s
  · exact setCall _ _ _

theorem endOtherStep (h : Nat) : Planned s (s.endOtherStep h).1 := by
  unfold State.endOtherStep
  split
  · exact refl s
  · split
    · exact ((endPart _ _ _).trans (postWindowEnd _ _ _ _ _ _)).trans (removeRecord _ _)
    · exact removeRecord _ _

theorem endSteps (i : Nat) (inHand : Option Nat) (l : List (Nat × Nat)) (c : Bool) :
    Planned s (s.endSteps i inHand l c).1 := by
  induction l generalizing s c with
  | nil => exact refl s
  | cons x rest ih =>
    obtain ⟨j, h⟩ := x
    unfold State.endSteps
    split
    · exact ih s c
    · exact ((endOtherStep s h).trans (updateExchange _ _ _)).trans (ih _ _)

theorem abandon (i failing : Nat) (reason : Reason) (inHand : Option Nat) (announce : Bool) :
    Planned w.st (w.abandon i failing reason inHand announce).st := by
  unfold Work.abandon
  split
  · exact refl _
  · have h1 := fun l => endSteps w.st i inHand l false
    dsimp only
    split
    · exact ((h1 _).trans (post _ _ _ _ _ _ _)).trans (setExchange _ _ _)
    · exact (h1 _).trans (setExchange _ _ _)

theorem then_abandon {s : State} {w : Work} {i failing : Nat} {reason : Reason} {inHand : Option Nat}
    {announce : Bool} (a : Planned s w.st) : Planned s (w.abandon i failing reason inHand announce).st :=
  a.trans (abandon w i failing reason inHand announce)

theorem informExchange (i h : Nat) (e : Ending) : Planned w.st (w.informExchange i h e).st := by
  unfold Work.informExchange
  split
  · exact refl _
  · split
    · exact refl _
    · dsimp only
      split
      · split
        · exact ((setExchange _ _ _).trans (post _ _ _ _ _ _ _)).trans (setExchange _ _ _)
        · split
          · exact then_abandon (setExchange w.st _ _)
          · exact setExchange _ _ _
      · exact then_abandon (setExchange w.st _ _)

theorem inform (h : Nat) (r : Record) (k : Nat) (e : Ending) : Planned w.st (w.inform h r k e).st := by
  unfold Work.inform
  split
  · exact refl _
  · exact informCall _ _ _ _ _
  · exact informExchange _ _ _ _

/-! ### Placing and cutting -/

theorem grantAt (h : Nat) (start : LocalTime) (shift : Nat) : Planned s (s.grantAt h start shift) :=
  (updateOcc s h _ fun _ hx => by cases hx).trans (setNotice _ _)

theorem report (o : Origin) (h : Nat) (out : AdmitOutcome) (p : LocalTime) (shift : Nat) :
    (w.report o h out p shift).st = w.st := by
  cases o <;> cases out <;> rfl

theorem defer (h : Nat) (r : Record) (start : LocalTime) (cs : List Contest) (o : Origin) :
    Planned w.st (w.defer h r start cs o).1.st := by
  unfold Work.defer
  dsimp only
  split
  · rw [report]
    have h1 : ∀ g : Occurrence → Occurrence, (∀ x, (g x).state = .granted) → Planned w.st (w.st.updateOcc h g) :=
      fun g hg => updateOcc _ h g fun x hx => by rw [hg] at hx; cases hx
    refine Planned.trans ?_ (setNotice _ _)
    split
    · exact h1 _ fun _ => rfl
    · exact (h1 _ fun _ => rfl).trans (post _ _ _ _ _ _ _)
  · rw [report]
    dsimp only
    split
    · exact refl _
    · exact post _ _ _ _ _ _ _

theorem placeRemainder (h : Nat) (r : Record) (low latest : LocalTime) (t : State)
    (ht : s.placeRemainder h r low latest = some t) : Planned s t := by
  unfold State.placeRemainder at ht
  split at ht
  · cases ht
  · cases ht
    exact ((updateOcc s h _ fun _ hx => by cases hx).trans (post _ _ _ _ _ _ _)).trans (setNotice _ _)

theorem takeCut (h : Nat) (cut : LocalTime) : Planned s (s.takeCut h cut).1 := by
  have h1 := endPart s h cut
  unfold State.takeCut
  dsimp only
  split
  · exact h1
  · split
    · exact h1.trans (postWindowEnd _ _ _ _ _ _)
    · split
      · split
        · rename_i hp
          exact h1.trans (placeRemainder _ _ _ _ _ _ hp)
        · exact h1.trans (postWindowEnd _ _ _ _ _ _)
      · exact h1.trans (postWindowEnd _ _ _ _ _ _)

theorem scheduleCut (h : Nat) (r : Record) (start : LocalTime) (len : Nat) :
    Planned s (s.scheduleCut h r start len) := by
  unfold State.scheduleCut
  refine updateOcc s h _ fun x hx => ?_
  dsimp only at hx
  split at hx <;> exact hx

theorem displace (h : Nat) (r : Record) (g : LocalTime) : Planned s (s.displace h r g).1 := by
  unfold State.displace
  dsimp only
  split
  · exact ((updateOcc s h _ fun _ hx => by cases hx).trans (post _ _ _ _ _ _ _)).trans (setNotice _ _)
  · exact post _ _ _ _ _ _ _

theorem displaceRemainder (h : Nat) (r : Record) (g : LocalTime) : Planned s (s.displaceRemainder h r g).1 := by
  unfold State.displaceRemainder
  dsimp only
  split
  · exact ((updateOcc s h _ fun _ hx => by cases hx).trans (post _ _ _ _ _ _ _)).trans (setNotice _ _)
  · exact postWindowEnd _ _ _ _ _ _

theorem handleMember (start : LocalTime) (o : Owner) (profile len : Nat) (y : Bool) (c : Contest) :
    Planned s (s.handleMember start o profile len y c).1 := by
  unfold State.handleMember
  dsimp only
  split
  · exact post _ _ _ _ _ _ _
  · split
    · exact displaceRemainder _ _ _ _
    · exact displace _ _ _ _

theorem handleMembers (start : LocalTime) (o : Owner) (profile len : Nat) (y : Bool) (cs : List Contest) :
    Planned s (s.handleMembers start o profile len y cs).1 := by
  induction cs generalizing s with
  | nil => exact refl s
  | cons c cs ih => exact (handleMember s start o profile len y c).trans (ih _)

theorem withdraw (hs : List Nat) : Planned s (s.withdraw hs) := by
  unfold State.withdraw
  induction hs generalizing s with
  | nil => exact refl s
  | cons h hs ih => exact (updateOcc s h _ fun _ hx => by cases hx).trans (ih _)

theorem cutAtOnce (h : Nat) : Planned s (s.cutAtOnce h).1 := by
  unfold State.cutAtOnce
  split
  · exact refl s
  · split
    · exact takeCut _ _ _
    · exact refl s

/-! ### Arbitration -/

theorem grant (h : Nat) (r : Record) (start : LocalTime) (cs : List Contest) (y : Bool) (o : Origin) :
    Planned w.st (w.grant h r start cs y o).1.st := by
  unfold Work.grant
  dsimp only
  rw [report]
  dsimp only
  have h1 : ∀ l : List Nat, Planned w.st ((w.st.withdraw l).grantAt h start 0) := fun l =>
    (withdraw _ _).trans (grantAt _ _ _ _)
  split
  · rename_i c _
    exact (((h1 _).trans (scheduleCut _ _ _ _ _)).trans (handleMembers _ _ _ _ _ _ _)).trans (cutAtOnce _ _)
  · exact (h1 _).trans (handleMembers _ _ _ _ _ _ _)

theorem yieldArrival (h : Nat) (r : Record) (start : LocalTime) (o : Origin) :
    Planned w.st (w.yieldArrival h r start o).1.st := by
  unfold Work.yieldArrival
  dsimp only
  rw [report]
  dsimp only
  split
  · exact refl _
  · exact post _ _ _ _ _ _ _

theorem decide' (h : Nat) (r : Record) (start : LocalTime) (o : Origin) (cs : List Contest) :
    Planned w.st (w.decide' h r start o cs).1.1.st := by
  unfold Work.decide'
  dsimp only
  split
  · exact defer _ _ _ _ _ _
  · split
    · split
      · exact (answerYield w.st _ _).trans (grant { w with st := _ } _ _ _ _ _ _)
      · exact (answerYield w.st _ _).trans (defer { w with st := _ } _ _ _ _ _)
    · split
      · split
        · exact (answerYield w.st _ _).trans (yieldArrival { w with st := _ } _ _ _ _)
        · exact (answerYield w.st _ _).trans (grant { w with st := _ } _ _ _ _ _ _)
      · exact grant _ _ _ _ _ _ _

theorem arbitrate (h : Nat) (r : Record) (o : Origin) : Planned w.st (w.arbitrate h r o).1.st := by
  unfold Work.arbitrate
  dsimp only
  split
  · exact (decide' _ _ _ _ _ _).trans (passToken _ _ _)
  · exact decide' _ _ _ _ _ _

/-! ### RT's tasks -/

theorem closeWaiting (o : Owner) (h l k : Nat) (u : Bool) : Planned s (s.closeWaiting o h l k u) := by
  unfold State.closeWaiting
  dsimp only
  split
  · exact (post _ _ _ _ _ _ _).trans (post _ _ _ _ _ _ _)
  · exact post _ _ _ _ _ _ _

theorem closeWalk (o : Owner) (h l k : Nat) (u : Bool) : Planned s (s.closeWalk o h l k u) := by
  unfold State.closeWalk
  have h1 : Planned s (if 0 < k then s.postMissed o h .missedSwitch false k else s) := by
    split
    · exact post _ _ _ _ _ _ _
    · exact refl s
  have h2 : ∀ t, Planned t (if u then t.postMissed o h .untimed false 1 else t) := fun t => by
    split
    · exact post _ _ _ _ _ _ _
    · exact refl t
  dsimp only
  split
  · exact (h1.trans (h2 _)).trans (post _ _ _ _ _ _ _)
  · exact h1.trans (h2 _)

/-- The counts of a record do not touch its window. -/
theorem count'_state (r : Record) (e : Ending) : (r.count' e).occ = r.occ := by
  cases e <;> rfl

theorem walkStep (h l k : Nat) (u : Bool) : Planned w.st (w.walkStep h l k u).1.st := by
  have fin : ∀ (r : Record) (e : Ending) (w1 : Work) (o : Owner) (a b : Nat), Planned w.st w1.st →
      Planned w.st ((w1.map (·.closeWalk o h a b u)).exhaust h e).st := fun r e w1 o a b h1 =>
    then_exhaust (w := w1.map _) (h1.trans (closeWalk _ _ _ _ _ _))
  have set : ∀ (r : Record) (e : Ending), r.occ.state = .withdrawn →
      Planned w.st (w.st.setRecord h (some (r.count' e))) := fun r e hr =>
    setRecord_some _ _ _ (by rw [count'_state, hr]; decide)
  unfold Work.walkStep
  split
  · exact refl _
  · rename_i r hr
    split
    · dsimp only
      split
      · exact (setRecord_some w.st _ _ (by simp [Record.freshOcc])).trans (closeWaiting _ _ _ _ _ _)
      · rename_i entry lt adv _
        split
        · have h1 := fun rr (hrr : rr.occ.state = .withdrawn) k' =>
            (set rr (.missed .switch) hrr).trans
              (inform { w with st := w.st.setRecord h (some (rr.count' (.missed .switch))) } h
                (rr.count' (.missed .switch)) k' (.missed .switch))
          split
          · exact fin r _ _ _ _ _ (h1 _ rfl _)
          · exact h1 _ rfl _
        · have h1 := setRecord_some w.st h
            { r with
              remaining := r.remaining.map (· - 1)
              occ := ({ r with remaining := r.remaining.map (· - 1) } : Record).freshOcc ((r.occ.k + 1) % 65536) .withdrawn
                entry (some lt) adv }
            (by simp [Record.freshOcc])
          split
          · exact fin r _ _ _ _ _ h1
          · exact h1
      · rename_i entry lt adv _
        split
        · split
          · exact (setRecord_some w.st _ _ (by simp [Record.freshOcc])).trans (closeWalk _ _ _ _ _ _)
          · have h1 := fun rr (hrr : rr.occ.state = .withdrawn) k' =>
              (set rr (.missed .late) hrr).trans
                (inform { w with st := w.st.setRecord h (some (rr.count' (.missed .late))) } h
                  (rr.count' (.missed .late)) k' (.missed .late))
            split
            · exact fin r _ _ _ _ _ (h1 _ rfl _)
            · exact h1 _ rfl _
        · have h1 := setRecord_some w.st h
            { r with
              remaining := r.remaining.map (· - 1)
              occ := ({ r with remaining := r.remaining.map (· - 1) } : Record).freshOcc ((r.occ.k + 1) % 65536) .withdrawn
                entry (some lt) adv }
            (by simp [Record.freshOcc])
          split
          · exact fin r _ _ _ _ _ h1
          · exact h1
    · exact refl _

theorem takeEnding (h k : Nat) (e : Ending) : Planned w.st (w.takeEnding h k e).1.st := by
  unfold Work.takeEnding
  split
  · exact refl _
  · rename_i r hr
    split
    · rename_i hc
      have hw : r.occ.state = .withdrawn := by
        simp only [Bool.and_eq_true, beq_iff_eq] at hc
        exact hc.2
      have h1 := (setRecord_some w.st h (r.count' e) (by rw [count'_state, hw]; decide)).trans
        (inform { w with st := w.st.setRecord h (some (r.count' e)) } h (r.count' e) k e)
      dsimp only
      split
      · exact then_exhaust (h1.trans (closeWalk _ _ _ _ _ _))
      · exact h1
    · exact refl _

theorem takeMember (h k : Nat) (p : Placement) : Planned w.st (w.takeMember h k p).1.st := by
  unfold Work.takeMember
  split
  · exact refl _
  · rename_i r hr
    split
    · dsimp only
      have h1 : ∀ x : Occurrence, x.state = .withdrawn → Planned w.st (w.st.setRecord h (some { r with occ := x })) :=
        fun x hx => setRecord_some _ _ _ (by rw [hx]; decide)
      split
      · exact h1 _ rfl
      · split
        · split
          · exact then_exhaust (h1 _ rfl)
          · exact h1 _ rfl
        · exact h1 _ rfl
      · split
        · split
          · exact then_exhaust (h1 _ rfl)
          · exact h1 _ rfl
        · split
          · exact h1 _ rfl
          · exact h1 _ rfl
    · exact refl _

theorem takeExpiry (h entry : Nat) : Planned w.st (w.takeExpiry h entry).1.st := by
  unfold Work.takeExpiry
  split
  · exact refl _
  · split
    · dsimp only
      split
      · exact (postWindowEnd _ _ _ _ _ _).trans (withdraw _ _)
      · exact withdraw _ _
    · exact refl _

theorem doTask (t : Task) : Planned w.st (Machine.doTask t w).1.st := by
  unfold Machine.doTask
  split
  · split
    · exact refl _
    · split
      · exact arbitrate _ _ _ _
      · exact refl _
  · exact takeEnding _ _ _ _
  · exact walkStep _ _ _ _ _
  · exact takeMember _ _ _ _
  · exact takeExpiry _ _ _

/-! ### The cascade -/

theorem runTasks (n : Nat) (ts : List Task) (v : Work) (h : Machine.runTasks n ts w = some v) :
    Planned w.st v.st := by
  induction n generalizing ts w with
  | zero =>
    cases ts with
    | nil => cases h; exact refl _
    | cons t ts => cases h
  | succ n ih =>
    cases ts with
    | nil => cases h; exact refl _
    | cons t ts => exact ((doTask w t).trans (refreshWindows _)).trans (ih ((Machine.doTask t w).1.map _) _ h)

/-- The cascade of a step, whatever tasks it starts with. -/
theorem run (ts : List Task) (v : Work) (h : w.run ts = some v) : Planned w.st v.st := runTasks w _ ts v h

theorem reresolve (ms : List (Nat × Record)) (named : Record → Nat) : Planned s (s.reresolve ms named).1 :=
  (withdraw s _).trans (refreshWindows _)

theorem admitRecord (r : Record) (h : Nat) (t : State) (hr : r.occ.state ≠ .active) (ha : s.admitRecord r = some (h, t)) :
    Planned s t := by
  unfold State.admitRecord at ha
  split at ha
  · cases ha
  · have h1 := fun k => setRecord_some s k r hr
    cases ha
    split
    · exact (h1 _).trans (updateCell _ _ _ fun _ => rfl)
    · exact h1 _

end Sys2Proof.Machine.Planned
end

