-- ==== Sys2Proof/Laws/Codec.lean ====
section
/-!
SUPPORT. Fields written and read back: numbers as big-endian bytes, two's complement, and bytes as the bits of a
transaction (R176, R179).
-/

namespace Sys2Proof

@[simp] theorem length_bytesOfNat (w n : Nat) : (bytesOfNat w n).length = w := by
  induction w generalizing n with
  | zero => rfl
  | succ w ih => simp [bytesOfNat, ih]

@[simp] theorem length_bytesOfInt (w : Nat) (i : Int) : (bytesOfInt w i).length = w := length_bytesOfNat w _

@[simp] theorem length_bytesOfTime (t : CellTime) : (bytesOfTime t).length = 5 := by simp [bytesOfTime]

@[simp] theorem natOfBytes_nil : natOfBytes [] = 0 := rfl

theorem natOfBytes_from (bs : List Byte) (n : Nat) :
    bs.foldl (fun n b => n * 256 + b.toNat) n = n * 256 ^ bs.length + natOfBytes bs := by
  unfold natOfBytes
  induction bs generalizing n with
  | nil => simp
  | cons b bs ih =>
    simp only [List.foldl_cons, List.length_cons]
    rw [ih (n * 256 + b.toNat), ih (0 * 256 + b.toNat)]
    grind

theorem natOfBytes_cons (b : Byte) (bs : List Byte) :
    natOfBytes (b :: bs) = b.toNat * 256 ^ bs.length + natOfBytes bs := by
  have := natOfBytes_from bs (0 * 256 + b.toNat)
  simpa [natOfBytes] using this

/-- `w` bytes carry the low `8 × w` bits of a number. -/
theorem natOfBytes_bytesOfNat (w n : Nat) : natOfBytes (bytesOfNat w n) = n % 256 ^ w := by
  induction w with
  | zero => simp [bytesOfNat, Nat.mod_one]
  | succ w ih =>
    rw [bytesOfNat, natOfBytes_cons, length_bytesOfNat, ih, BitVec.toNat_ofNat]
    have h := Nat.mod_mul (x := n) (a := 256 ^ w) (b := 256)
    rw [show 256 ^ (w + 1) = 256 ^ w * 256 from Nat.pow_succ .., h, show 2 ^ 8 = 256 from rfl,
      Nat.mul_comm, Nat.add_comm]

/-- A number that fits its field is read back from it. -/
theorem natOfBytes_fits (w n : Nat) (h : fitsBytes w n = true) : natOfBytes (bytesOfNat w n) = n := by
  rw [natOfBytes_bytesOfNat, Nat.mod_eq_of_lt (by simpa [fitsBytes] using h)]

/-- The field of bytes that starts where a prefix ends. -/
theorem field_append (xs ys zs : List Byte) (at' w : Nat) (ha : xs.length = at') (hw : ys.length = w) :
    field (xs ++ ys ++ zs) at' w = natOfBytes ys := by
  subst ha hw
  simp [field, List.append_assoc]

@[simp] theorem length_bitsOfBytes (bs : List Byte) : (bitsOfBytes bs).length = 8 * bs.length := by
  induction bs with
  | nil => rfl
  | cons b bs ih => simp [bitsOfBytes, ih]; omega

theorem bytesOfBits_one (b : Byte) :
    BitVec.ofNat 8 ((b.getLsbD 7).toNat * 128 + (b.getLsbD 6).toNat * 64 + (b.getLsbD 5).toNat * 32
      + (b.getLsbD 4).toNat * 16 + (b.getLsbD 3).toNat * 8 + (b.getLsbD 2).toNat * 4 + (b.getLsbD 1).toNat * 2
      + (b.getLsbD 0).toNat) = b := by
  revert b
  decide +kernel

/-- Whole bytes sent bit by bit are received as they were (section 4 of the scope, R176). -/
@[simp] theorem bytesOfBits_bitsOfBytes (bs : List Byte) : bytesOfBits (bitsOfBytes bs) = bs := by
  induction bs with
  | nil => rfl
  | cons b bs ih => simp only [bitsOfBytes, List.cons_append, List.nil_append, bytesOfBits, ih, bytesOfBits_one]

end Sys2Proof
end

