-- ==== Sys2Proof/Laws/Forms.lean ====
section
/-!
SUPPORT. The forms every row runs in, and the end of a step: what a ready command has in its port, what each form answers,
and what settling can change. Callers cite these and do not unfold `State.command`, `State.planCommand`, `State.event`,
`State.cascade` or `State.settle`.
-/

namespace Sys2Proof.Machine

/-! ### Steps -/

theorem step_cons (s : State) (c : Instr) (rest : List Instr) (h : s.pending = c :: rest) :
    step s = exec c { s with pending := rest } := by
  unfold step
  rw [h]

theorem step_nil (s : State) (h : s.pending = []) : step s = .next s := by
  unfold step
  rw [h]

/-! ### Ready commands -/

/-- A ready command: the part is AWAKE, the slot PENDING and the frame held is exactly the command's (R17, R179). -/
theorem ready_iff (s : State) (p : Port) (i : Instr) :
    s.ready p i = true ↔ s.sc.state = .awake ∧ (∃ n, (s.port p).slot = .pending n)
      ∧ ∃ f, (s.port p).buffer = some f ∧ parseFrame p f.number f.params = .command i := by
  unfold State.ready State.heldCommand
  cases h1 : (s.port p).slot <;> cases h2 : (s.port p).buffer with
  | none => simp
  | some f => cases h3 : parseFrame p f.number f.params <;> simp [h3]

theorem executes_ready {s : State} {p : Port} {n : Nat} {i : Instr} (h : s.executes p n i) : s.ready p i = true := h.1

theorem executes_slot {s : State} {p : Port} {n : Nat} {i : Instr} (h : s.executes p n i) :
    (s.port p).slot = .pending n := h.2

theorem executes_awake {s : State} {p : Port} {n : Nat} {i : Instr} (h : s.executes p n i) : s.sc.state = .awake :=
  ((ready_iff s p i).mp h.1).1

theorem executes_counting {s : State} {p : Port} {n : Nat} {i : Instr} (h : s.executes p n i) : s.counting = true := by
  simp [State.counting, executes_awake h]

/-- A PENDING slot becomes DONE and the buffer is free (R180). -/
theorem complete_pending (s : State) (p : Port) (n : Nat) (st : Status) (rs : List Byte)
    (h : (s.port p).slot = .pending n) : s.complete p st rs = s.setPort p ((s.port p).answered n st rs) := by
  simp [State.complete, PortState.answered, h]

/-- A slot that is not PENDING stays as it is. -/
theorem complete_other (s : State) (p : Port) (st : Status) (rs : List Byte)
    (h : ∀ n, (s.port p).slot ≠ .pending n) : s.complete p st rs = s := by
  unfold State.complete
  dsimp only
  split <;> simp_all

/-- Completing changes PI alone. -/
theorem complete_fields (s : State) (p : Port) (st : Status) (rs : List Byte) :
    (s.complete p st rs).tb = s.tb ∧ (s.complete p st rs).ct = s.ct ∧ (s.complete p st rs).rt = s.rt
      ∧ (s.complete p st rs).arb = s.arb ∧ (s.complete p st rs).wc = s.wc ∧ (s.complete p st rs).su = s.su
      ∧ (s.complete p st rs).hu = s.hu ∧ (s.complete p st rs).sc = s.sc ∧ (s.complete p st rs).resetN = s.resetN
      ∧ (s.complete p st rs).free = s.free ∧ (s.complete p st rs).pending = s.pending := by
  unfold State.complete
  dsimp only
  split <;> simp

/-! ### What each form answers -/

theorem command_ready (s : State) (p : Port) (i : Instr) (body : State → Answer) (h : s.ready p i = true) :
    s.command p i body = .next ((body s).1.complete p (body s).2.1 (body s).2.2) := by
  simp [State.command, h]

theorem command_idle (s : State) (p : Port) (i : Instr) (body : State → Answer) (h : s.ready p i = false) :
    s.command p i body = .next s := by
  simp [State.command, h]

/-- A command that leaves its own port to be completed: the slot becomes DONE with the answer (R180). -/
theorem command_executes {s t : State} {p : Port} {n : Nat} {i : Instr} {body : State → Answer} {st : Status}
    {rs : List Byte} (h : s.executes p n i) (hb : body s = (t, st, rs)) (hs : (t.port p).slot = .pending n) :
    s.command p i body = .next (t.setPort p ((t.port p).answered n st rs)) := by
  rw [command_ready s p i body h.1, hb, complete_pending t p n st rs hs]

/-- A refusal of a ready command changes its port alone (R180). -/
theorem command_refused {s : State} {p : Port} {n : Nat} {i : Instr} {body : State → Answer} {st : Status}
    (h : s.executes p n i) (hb : body s = refuse s st) :
    s.command p i body = .next (s.setPort p ((s.port p).answered n st [])) :=
  command_executes h hb h.2

theorem planCommand_idle (s : State) (p : Port) (i : Instr) (body : State → Reply) (h : s.ready p i = false) :
    s.planCommand p i body = .next s := by
  simp [State.planCommand, h]

theorem planCommand_accepts {s t : State} {p : Port} {n : Nat} {i : Instr} {body : State → Reply} {rs : List Byte}
    (h : s.executes p n i) (hb : body s = some (t, .ok, rs)) (hs : (t.port p).slot = .pending n) :
    s.planCommand p i body = .next (State.settle s (t.setPort p ((t.port p).answered n .ok rs))) := by
  simp [State.planCommand, h.1, hb, complete_pending t p n .ok rs hs]

theorem planCommand_refused {s : State} {p : Port} {n : Nat} {i : Instr} {body : State → Reply} {st : Status}
    (h : s.executes p n i) (hb : body s = some (refuse s st)) (hst : st ≠ .ok) :
    s.planCommand p i body = .next (s.setPort p ((s.port p).answered n st [])) := by
  simp [State.planCommand, h.1, hb, refuse, hst, complete_pending s p n st [] h.2]

/-- Everything a plan command can do. -/
theorem planCommand_cases {s t : State} {p : Port} {i : Instr} {body : State → Reply}
    (h : s.planCommand p i body = .next t) :
    (s.ready p i = false ∧ t = s)
      ∨ ∃ u st rs, s.ready p i = true ∧ body s = some (u, st, rs)
          ∧ ((st = .ok ∧ t = State.settle s (u.complete p st rs)) ∨ (st ≠ .ok ∧ t = u.complete p st rs)) := by
  unfold State.planCommand at h
  split at h
  · rename_i hr
    split at h
    · rename_i u st rs hb
      right
      refine ⟨u, st, rs, hr, hb, ?_⟩
      split at h <;> simp_all
    · cases h
  · left
    simp_all

theorem command_cases {s t : State} {p : Port} {i : Instr} {body : State → Answer} (h : s.command p i body = .next t) :
    (s.ready p i = false ∧ t = s)
      ∨ (s.ready p i = true ∧ t = (body s).1.complete p (body s).2.1 (body s).2.2) := by
  unfold State.command at h
  split at h <;> simp_all

theorem event_cases {s t : State} {result : Option State} (h : s.event result = .next t) :
    (result = none ∧ t = s) ∨ ∃ u, result = some u ∧ t = State.settle s u := by
  unfold State.event at h
  split at h <;> simp_all

theorem cascade_cases {s t : State} {due : Bool} {result : Option State} (h : s.cascade due result = .next t) :
    (due = false ∧ t = s) ∨ ∃ u, due = true ∧ result = some u ∧ t = State.settle s u := by
  unfold State.cascade at h
  split at h
  · split at h <;> simp_all
  · simp_all

/-! ### The end of a step -/

/-- WC taking up a change: the next window and the window a load serves, and nothing else (R86). -/
theorem refreshWindows_wc (s : State) :
    s.refreshWindows.wc = { s.wc with next := s.refreshWindows.wc.next, load := s.refreshWindows.wc.load }
      ∧ s.refreshWindows.wc.load.map (fun l => { l with serves := none })
        = s.wc.load.map (fun l => { l with serves := none }) := by
  refine ⟨rfl, ?_⟩
  simp only [State.refreshWindows]
  cases s.wc.load <;> rfl

theorem refreshWindows_load_none (s : State) (h : s.wc.load = none) : s.refreshWindows.wc.load = none := by
  simp [State.refreshWindows, h]

/-- No rise is due while a window is ACTIVE. -/
theorem riseDue_active (s : State) (h : s.active? ≠ none) : s.riseDue = none := by
  unfold State.riseDue
  split
  · rfl
  · simp [h]

/-- Settling activates a window only upon the end of an ACTIVE one (R93). -/
theorem settleWindows_quiet (s u : State) (h : s.active? = none ∨ u.active? ≠ none) :
    State.settleWindows s u = u.refreshWindows := by
  unfold State.settleWindows
  rcases h with h | h
  · simp [h]
  · have := riseDue_active u.refreshWindows (by rw [active?_congr u u.refreshWindows rfl]; exact h)
    simp [this]

/-- SC at the end of a step: the mark only falls, and only an entry is abandoned (R156, R157). -/
theorem settleSleep_sc (s u : State) :
    (State.settleSleep s u).sc =
        { u.sc with
          spanShort := (State.settleSleep s u).sc.spanShort, state := (State.settleSleep s u).sc.state }
      ∧ ((State.settleSleep s u).sc.spanShort = true → u.sc.spanShort = true)
      ∧ ((State.settleSleep s u).sc.state = u.sc.state
        ∨ (u.sc.state = .entering ∧ (State.settleSleep s u).sc.state = .awake ∧ u.entryCondition = false)) := by
  refine ⟨rfl, ?_, ?_⟩
  · simp only [State.settleSleep]
    simp_all
  · simp only [State.settleSleep]
    split <;> simp_all

/-- The entry condition does not read SC. -/
theorem entryCondition_congr (s t : State) (h1 : t.pi = s.pi) (h2 : t.rt = s.rt) (h3 : t.tb.run = s.tb.run) :
    t.entryCondition = s.entryCondition := by
  unfold State.entryCondition
  rw [h1, active?_congr s t h2, h3]

/-- Where no activation falls in a step's end, settling replans and touches nothing else. -/
theorem settle_quiet (s u : State) (h : s.active? = none ∨ u.active? ≠ none) :
    u.sameExcept (State.settle s u) [.wc, .sc] ∧ u.replanned (State.settle s u) := by
  unfold State.settle
  rw [settleWindows_quiet s u h]
  have hsc := settleSleep_sc s u.refreshWindows
  refine ⟨?_, (refreshWindows_wc u).1, (refreshWindows_wc u).2, hsc.1, hsc.2.1, ?_⟩
  · refine ⟨fun _ => rfl, fun _ => rfl, fun _ => rfl, fun _ => rfl, ?_, fun _ => rfl, fun _ => rfl, ?_,
      fun _ _ => rfl, fun _ => rfl, fun _ => rfl, fun _ => rfl⟩ <;> simp
  · rcases hsc.2.2 with h1 | ⟨h1, h2, h3⟩
    · exact .inl h1
    · refine .inr ⟨h1, h2, ?_⟩
      rw [← h3]
      exact entryCondition_congr _ _ rfl rfl rfl

/-- Settling an AWAKE part leaves it AWAKE, and clears no more of SC than the span-short mark. -/
theorem settle_awake (s u : State) (h : s.active? = none ∨ u.active? ≠ none) (ha : u.sc.state = .awake) :
    (State.settle s u).sc = { u.sc with spanShort := (State.settle s u).sc.spanShort } := by
  have hq := (settle_quiet s u h).2.2.2
  rcases hq.2.2 with h1 | ⟨h1, -, -⟩
  · rw [hq.1, h1]
  · rw [ha] at h1
    cases h1

/-! ### The cascade -/

theorem runTasks_nil (n : Nat) (w : Work) : runTasks n [] w = some w := by
  cases n <;> rfl

theorem run_nil (w : Work) : w.run [] = some w := runTasks_nil _ w

theorem runTasks_cons (n : Nat) (t : Task) (ts : List Task) (w : Work) :
    runTasks (n + 1) (t :: ts) w = runTasks n ((doTask t w).2 ++ ts) ((doTask t w).1.map (·.refreshWindows)) := rfl

/-- A cascade that ends within a bound ends the same way within a larger one. -/
theorem runTasks_mono (n m : Nat) (ts : List Task) (w v : Work) (h : runTasks n ts w = some v) (hm : n ≤ m) :
    runTasks m ts w = some v := by
  induction n generalizing m ts w with
  | zero =>
    cases ts with
    | nil => rw [runTasks_nil]; rw [runTasks_nil] at h; exact h
    | cons t ts => simp [runTasks] at h
  | succ n ih =>
    cases ts with
    | nil => rw [runTasks_nil]; rw [runTasks_nil] at h; exact h
    | cons t ts =>
      obtain ⟨k, rfl⟩ : ∃ k, m = k + 1 := ⟨m - 1, by omega⟩
      rw [runTasks_cons] at h ⊢
      exact ih k _ _ h (by omega)

/-- A cascade that ends within a few tasks is the cascade of the step. -/
theorem run_of_runTasks (n : Nat) (ts : List Task) (w v : Work) (h : runTasks n ts w = some v)
    (hn : n ≤ Config.cascadeLimit) : w.run ts = some v := runTasks_mono n _ ts w v h hn

end Sys2Proof.Machine
end

