-- ==== Sys2Proof/Laws/PerInstr.lean ====
section
/-!
SUPPORT. The family of statements made per command: what a well-formed command's frame looks like to PI. The frame's
number is one of 1..38, its port is listed for it, its length is the one the command index gives, and it fits PI's 96
parameter bytes (R177, R179). A row that is no frame has none.
-/

namespace Sys2Proof.Laws.Frame

-- Proofs in turn, not side by side: many waiting threads, each with its stack, would outgrow the checker's memory.
set_option Elab.async false

/-- The frame of a well-formed command passes PI's checks of port and length. -/
def Statement (i : Instr) : Prop :=
  ∀ (p : Port) (n : Nat), i.wellFormed = true → i.command? = some (p, n) →
    1 ≤ n ∧ n ≤ 38 ∧ listedOn n p = true ∧ lengthAccepted n p (paramsOf i) = true ∧ (paramsOf i).length ≤ 96

/-- A row that is no frame. -/
theorem of_none (i : Instr) (h : i.command? = none) : Statement i := by
  intro p n _ hc
  rw [h] at hc
  cases hc

/-- A command of one port and number. -/
theorem of_some (i : Instr) (q : Port) (m : Nat) (h : i.command? = some (q, m)) (hn : 1 ≤ m ∧ m ≤ 38)
    (hw : i.wellFormed = true → listedOn m q = true ∧ lengthAccepted m q (paramsOf i) = true ∧ (paramsOf i).length ≤ 96) :
    Statement i := by
  intro p n hi hc
  rw [h] at hc
  cases hc
  exact ⟨hn.1, hn.2, hw hi⟩

theorem powerOnReset : Statement .powerOnReset := of_none _ rfl

theorem chipReset : Statement .chipReset := of_none _ rfl

theorem resetNRelease : Statement .resetNRelease := of_none _ rfl

theorem csNFall : ∀ p, Statement (.csNFall p) := by
  intro p
  exact of_none _ rfl

theorem csNRise : ∀ p bits, Statement (.csNRise p bits) := by
  intro p bits
  exact of_none _ rfl

theorem strobe : ∀ o, Statement (.strobe o) := by
  intro o
  exact of_none _ rfl

theorem readTime : ∀ p, Statement (.readTime p) := by
  intro p
  refine of_some _ p 1 rfl (by decide) ?_
  cases p <;> simp [Instr.wellFormed, listedOn, lengthAccepted, paramsOf]

theorem releaseCapture : ∀ p, Statement (.releaseCapture p) := by
  intro p
  refine of_some _ p 2 rfl (by decide) ?_
  cases p <;> simp [Instr.wellFormed, Port.isSub, listedOn, lengthAccepted, paramsOf]

theorem addCell : ∀ p c d, Statement (.addCell p c d) := by
  intro p c d
  refine of_some _ p 3 rfl (by decide) ?_
  cases p <;> simp [Instr.wellFormed, Port.isSub, listedOn, lengthAccepted, paramsOf]

theorem removeCell : ∀ p i, Statement (.removeCell p i) := by
  intro p i
  refine of_some _ p 4 rfl (by decide) ?_
  cases p <;> simp [Instr.wellFormed, Port.isSub, listedOn, lengthAccepted, paramsOf]

theorem readCell : ∀ p i, Statement (.readCell p i) := by
  intro p i
  refine of_some _ p 5 rfl (by decide) ?_
  cases p <;> simp [Instr.wellFormed, Port.isSub, listedOn, lengthAccepted, paramsOf]

theorem setServing : ∀ p i, Statement (.setServing p i) := by
  intro p i
  refine of_some _ p 6 rfl (by decide) ?_
  cases p <;> simp [Instr.wellFormed, Port.isSub, listedOn, lengthAccepted, paramsOf]

theorem clearServing : ∀ p, Statement (.clearServing p) := by
  intro p
  refine of_some _ p 7 rfl (by decide) ?_
  cases p <;> simp [Instr.wellFormed, Port.isSub, listedOn, lengthAccepted, paramsOf]

theorem timeCell : ∀ p a, Statement (.timeCell p a) := by
  intro p a
  refine of_some _ p 8 rfl (by decide) ?_
  cases p <;> simp [Instr.wellFormed, Port.isSub, listedOn, lengthAccepted, paramsOf]

theorem measureReport : ∀ p l, Statement (.measureReport p l) := by
  intro p l
  refine of_some _ p 9 rfl (by decide) ?_
  have h : ∀ x : Nat × Int, (bytesOfNat 1 x.1 ++ bytesOfInt 2 x.2).length = 3 := by simp
  cases p <;> simp [Instr.wellFormed, Port.isSub, listedOn, lengthAccepted, paramsOf, List.length_flatMap, h,
    List.map_const'] <;> omega

theorem setTrigger : ∀ p a b, Statement (.setTrigger p a b) := by
  intro p a b
  refine of_some _ p 10 rfl (by decide) ?_
  cases p <;> simp [Instr.wellFormed, Port.isSub, listedOn, lengthAccepted, paramsOf]

theorem reserve : ∀ p a, Statement (.reserve p a) := by
  intro p a
  refine of_some _ p 11 rfl (by decide) ?_
  cases p <;> simp [Instr.wellFormed, Port.isSub, listedOn, lengthAccepted, paramsOf]

theorem amend : ∀ p a, Statement (.amend p a) := by
  intro p a
  refine of_some _ p 12 rfl (by decide) ?_
  cases p <;> simp [Instr.wellFormed, Port.isSub, listedOn, lengthAccepted, paramsOf]

theorem cancel : ∀ p i, Statement (.cancel p i) := by
  intro p i
  refine of_some _ p 13 rfl (by decide) ?_
  cases p <;> simp [Instr.wellFormed, Port.isSub, listedOn, lengthAccepted, paramsOf]

theorem readReservation : ∀ p i, Statement (.readReservation p i) := by
  intro p i
  refine of_some _ p 14 rfl (by decide) ?_
  cases p <;> simp [Instr.wellFormed, Port.isSub, listedOn, lengthAccepted, paramsOf]

theorem setPolicy : ∀ p a b c g, Statement (.setPolicy p a b c g) := by
  intro p a b c g
  refine of_some _ p 15 rfl (by decide) ?_
  cases p <;> simp [Instr.wellFormed, Port.isSub, listedOn, lengthAccepted, paramsOf]

theorem readPolicy : ∀ p, Statement (.readPolicy p) := by
  intro p
  refine of_some _ p 16 rfl (by decide) ?_
  cases p <;> simp [Instr.wellFormed, listedOn, lengthAccepted, paramsOf]

theorem readTimeline : ∀ p k, Statement (.readTimeline p k) := by
  intro p k
  refine of_some _ p 17 rfl (by decide) ?_
  cases p <;> simp [Instr.wellFormed, listedOn, lengthAccepted, paramsOf]

theorem setProfile : ∀ p i a b c d, Statement (.setProfile p i a b c d) := by
  intro p i a b c d
  refine of_some _ p 18 rfl (by decide) ?_
  cases p <;> simp [Instr.wellFormed, Port.isSub, listedOn, lengthAccepted, paramsOf]

theorem endWindow : ∀ p h, Statement (.endWindow p h) := by
  intro p h
  refine of_some _ p 19 rfl (by decide) ?_
  cases p <;> simp [Instr.wellFormed, Port.isSub, listedOn, lengthAccepted, paramsOf]

theorem callStart : ∀ p a, Statement (.callStart p a) := by
  intro p a
  refine of_some _ p 20 rfl (by decide) ?_
  cases p <;> simp [Instr.wellFormed, Port.isSub, listedOn, lengthAccepted, paramsOf]

theorem callEnd : ∀ p, Statement (.callEnd p) := by
  intro p
  refine of_some _ p 21 rfl (by decide) ?_
  cases p <;> simp [Instr.wellFormed, Port.isSub, listedOn, lengthAccepted, paramsOf]

theorem readCall : ∀ p w, Statement (.readCall p w) := by
  intro p w
  refine of_some _ p 22 rfl (by decide) ?_
  cases p <;> cases w <;> simp [Instr.wellFormed, Port.isSub, listedOn, lengthAccepted, paramsOf, ownerByteFits]

/-- The byte that names the step count of an EXCHANGE SUBMIT. -/
theorem exchangeCount (a b c d e : List Byte) (ha : a.length = 5) (hb : b.length = 5) (hc : c.length = 1)
    (hd : d.length = 1) : field (a ++ (b ++ (c ++ (d ++ e)))) 11 1 = natOfBytes d := by
  have := field_append (a ++ b ++ c) d e 11 1 (by simp [ha, hb, hc]) hd
  simpa [List.append_assoc] using this

theorem exchangeSubmit : ∀ p a, Statement (.exchangeSubmit p a) := by
  intro p a
  refine of_some _ p 23 rfl (by decide) ?_
  cases p <;>
    simp [Instr.wellFormed, ExchangeParams.fits, Port.isSub, listedOn, lengthAccepted, paramsOf, List.length_flatMap,
      List.map_const', exchangeCount, natOfBytes_bytesOfNat] <;> grind

theorem exchangeCancel : ∀ p i, Statement (.exchangeCancel p i) := by
  intro p i
  refine of_some _ p 24 rfl (by decide) ?_
  cases p <;> simp [Instr.wellFormed, Port.isSub, listedOn, lengthAccepted, paramsOf]

theorem readExchange : ∀ p i, Statement (.readExchange p i) := by
  intro p i
  refine of_some _ p 25 rfl (by decide) ?_
  cases p <;> simp [Instr.wellFormed, Port.isSub, listedOn, lengthAccepted, paramsOf]

theorem handover : ∀ p i t, Statement (.handover p i t) := by
  intro p i t
  refine of_some _ p 26 rfl (by decide) ?_
  cases p <;> simp [Instr.wellFormed, Port.isSub, listedOn, lengthAccepted, paramsOf]

theorem handoverCancel : ∀ p, Statement (.handoverCancel p) := by
  intro p
  refine of_some _ p 27 rfl (by decide) ?_
  cases p <;> simp [Instr.wellFormed, Port.isSub, listedOn, lengthAccepted, paramsOf]

theorem handoverRevert : ∀ p t, Statement (.handoverRevert p t) := by
  intro p t
  refine of_some _ p 28 rfl (by decide) ?_
  cases p <;> simp [Instr.wellFormed, Port.isSub, listedOn, lengthAccepted, paramsOf]

theorem readHandover : ∀ p w, Statement (.readHandover p w) := by
  intro p w
  refine of_some _ p 29 rfl (by decide) ?_
  cases p <;> cases w <;> simp [Instr.wellFormed, Port.isSub, listedOn, lengthAccepted, paramsOf, ownerByteFits]

theorem vote : ∀ p v, Statement (.vote p v) := by
  intro p v
  refine of_some _ p 30 rfl (by decide) ?_
  cases p <;> simp [Instr.wellFormed, listedOn, lengthAccepted, paramsOf]

theorem setSleep : ∀ p a, Statement (.setSleep p a) := by
  intro p a
  refine of_some _ p 31 rfl (by decide) ?_
  cases p <;> simp [Instr.wellFormed, Port.isSub, listedOn, lengthAccepted, paramsOf]

theorem readSleep : ∀ p, Statement (.readSleep p) := by
  intro p
  refine of_some _ p 32 rfl (by decide) ?_
  cases p <;> simp [Instr.wellFormed, listedOn, lengthAccepted, paramsOf]

theorem calibrate : ∀ p, Statement (.calibrate p) := by
  intro p
  refine of_some _ p 33 rfl (by decide) ?_
  cases p <;> simp [Instr.wellFormed, Port.isSub, listedOn, lengthAccepted, paramsOf]

theorem fetchEvents : ∀ p, Statement (.fetchEvents p) := by
  intro p
  refine of_some _ p 34 rfl (by decide) ?_
  cases p <;> simp [Instr.wellFormed, listedOn, lengthAccepted, paramsOf]

theorem enablePort : ∀ p w, Statement (.enablePort p w) := by
  intro p w
  refine of_some _ p 35 rfl (by decide) ?_
  cases p <;> simp [Instr.wellFormed, Port.isSub, listedOn, lengthAccepted, paramsOf]

theorem disablePort : ∀ p w, Statement (.disablePort p w) := by
  intro p w
  refine of_some _ p 36 rfl (by decide) ?_
  cases p <;> simp [Instr.wellFormed, Port.isSub, listedOn, lengthAccepted, paramsOf]

theorem resetPort : ∀ p, Statement (.resetPort p) := by
  intro p
  refine of_some _ p 37 rfl (by decide) ?_
  cases p <;> simp [Instr.wellFormed, Port.isSub, listedOn, lengthAccepted, paramsOf]

theorem resetChip : ∀ p, Statement (.resetChip p) := by
  intro p
  refine of_some _ p 38 rfl (by decide) ?_
  cases p <;> simp [Instr.wellFormed, Port.isSub, listedOn, lengthAccepted, paramsOf]

theorem anchorExpiry : ∀ i, Statement (.anchorExpiry i) := by
  intro i
  exact of_none _ rfl

theorem handoverSwitch : ∀ o, Statement (.handoverSwitch o) := by
  intro o
  exact of_none _ rfl

theorem revertSwitch : ∀ o, Statement (.revertSwitch o) := by
  intro o
  exact of_none _ rfl

theorem revertClose : ∀ o, Statement (.revertClose o) := by
  intro o
  exact of_none _ rfl

theorem windowSoon : ∀ h, Statement (.windowSoon h) := by
  intro h
  exact of_none _ rfl

theorem loadBegin : Statement .loadBegin := of_none _ rfl

theorem loadComplete : Statement .loadComplete := of_none _ rfl

theorem activation : Statement .activation := of_none _ rfl

theorem partEnd : Statement .partEnd := of_none _ rfl

theorem cutTime : Statement .cutTime := of_none _ rfl

theorem sleepEntry : Statement .sleepEntry := of_none _ rfl

theorem entryEdge : Statement .entryEdge := of_none _ rfl

theorem oscillatorWarmUp : Statement .oscillatorWarmUp := of_none _ rfl

theorem timerWake : Statement .timerWake := of_none _ rfl

theorem commandWake : Statement .commandWake := of_none _ rfl

theorem gateOpen : Statement .gateOpen := of_none _ rfl

theorem gateClose : Statement .gateClose := of_none _ rfl

theorem refInTick : Statement .refInTick := of_none _ rfl

theorem slkInEdge : Statement .slkInEdge := of_none _ rfl

end Sys2Proof.Laws.Frame
end

