-- ==== Sys2Proof/Tests/Slice0.lean ====
section
/-!
SUPPORT. The model's own tests. Ill-formed commands are refused; a few steps give the values of the manual's worked
examples; and for every obligation with hypotheses, a state and operands that meet them, clause by clause. A witness
`witness_<n>…` belongs to obligation O<n>.
-/

namespace Sys2Proof.Tests

-- Proofs in turn, not side by side: many waiting threads, each with its stack, would outgrow the checker's memory.
set_option Elab.async false

open Sys2Proof.Machine

/-! ### Well-formedness: what each check refuses -/

def lateTime : CellTime := ⟨65536, 0, 0⟩
def anyTime : CellTime := ⟨5, 3, 0⟩

theorem test_ill_port : (Instr.addCell .policy 1 1).wellFormed = false := by decide
theorem test_ill_policy_port : (Instr.setPolicy .subA 1 1 1 1).wellFormed = false := by decide
theorem test_ill_byte : (Instr.removeCell .subA 256).wellFormed = false := by decide
theorem test_ill_two_bytes : (Instr.addCell .subA 65536 1).wellFormed = false := by decide
theorem test_ill_time : (Instr.handoverRevert .subA lateTime).wellFormed = false := by decide
theorem test_ill_slot : (Instr.handover .subA 1 ⟨0, 256, 0⟩).wellFormed = false := by decide
theorem test_ill_drift : (Instr.timeCell .subA ⟨0, anyTime, 2147483648, 0, 0, 0⟩).wellFormed = false := by decide
theorem test_ill_drift_low : (Instr.timeCell .subA ⟨0, anyTime, -2147483649, 0, 0, 0⟩).wellFormed = false := by decide
theorem test_ill_pairs_none : (Instr.measureReport .subA []).wellFormed = false := by decide
theorem test_ill_pairs_nine : (Instr.measureReport .subA (List.replicate 9 (0, 0))).wellFormed = false := by decide
theorem test_ill_level : (Instr.measureReport .subA [(0, 32768)]).wellFormed = false := by decide
theorem test_ill_reserve : (Instr.reserve .subA ⟨0, 0, anyTime, 16777216, 0, 0, 0, 0, 0, 0, 0⟩).wellFormed = false := by
  decide
theorem test_ill_amend : (Instr.amend .subB ⟨0, 1, 0, 65536, 0, 0, 0, 0⟩).wellFormed = false := by decide
theorem test_ill_call : (Instr.callStart .subA ⟨anyTime, 1, 1, 1, 256, 0, 0, 0, 0, 0⟩).wellFormed = false := by decide
theorem test_ill_steps : (Instr.exchangeSubmit .subA ⟨anyTime, anyTime, 0, 2, [⟨0, 0, 1200, 0⟩]⟩).wellFormed = false := by
  decide
theorem test_ill_no_steps : (Instr.exchangeSubmit .subA ⟨anyTime, anyTime, 0, 0, []⟩).wellFormed = false := by decide
theorem test_ill_nine_steps :
    (Instr.exchangeSubmit .subA ⟨anyTime, anyTime, 0, 9, List.replicate 9 ⟨0, 0, 1200, 0⟩⟩).wellFormed = false := by
  decide
theorem test_ill_step : (Instr.exchangeSubmit .subA ⟨anyTime, anyTime, 0, 1, [⟨256, 0, 1200, 0⟩]⟩).wellFormed = false := by
  decide
theorem test_ill_sleep : (Instr.setSleep .policy ⟨0, 1, 65536, 0, 0, 0, 0, 0⟩).wellFormed = false := by decide
theorem test_ill_owner_byte : (Instr.readCall .subA (some 0)).wellFormed = false := by decide
theorem test_ill_no_owner_byte : (Instr.readHandover .policy none).wellFormed = false := by decide
theorem test_ill_entry : (Instr.anchorExpiry 24).wellFormed = false := by decide
theorem test_ill_handle : (Instr.windowSoon 64).wellFormed = false := by decide

/-! ### Frames, written out from the command index and R179 -/

/-- TIME CELL: number 8, 19 bytes: index, frame, slot, offset, drift, advance, source, LT. -/
theorem test_frame_time_cell :
    parseFrame .subA 8 [3, 0x03, 0x2C, 4, 0x0D, 0xAC, 0xFF, 0xFF, 0x0D, 0xD0, 0x23, 0x28, 1, 0, 0, 0, 0, 0, 0]
      = .command (.timeCell .subA ⟨3, ⟨812, 4, 3500⟩, -62000, 9000, 1, 0⟩) := by decide

/-- MEASURE REPORT: three bytes a pair, the level in two's complement. -/
theorem test_frame_measure_report :
    parseFrame .subB 9 [2, 0xFF, 0x38, 5, 0xFE, 0xC0] = .command (.measureReport .subB [(2, -200), (5, -320)]) := by
  decide +kernel

/-- SET POLICY is listed for POLICY alone. -/
theorem test_frame_wrong_port : parseFrame .subA 15 [2, 6, 11, 9, 0x60] = .refused .wrongPort := by decide
theorem test_frame_set_policy : parseFrame .policy 15 [2, 6, 11, 9, 0x60] = .command (.setPolicy .policy 2 6 11 2400) := by
  decide

/-- EXCHANGE SUBMIT whose count byte and length disagree. -/
theorem test_frame_exchange_count :
    parseFrame .subA 23 [0, 5, 3, 0, 0, 0, 6, 3, 0, 0, 4, 2, 1, 0, 0, 0, 0, 0x04, 0xB0, 2] = .refused .badParam := by decide
theorem test_frame_unknown : parseFrame .subA 39 [] = .refused .badCommand := by decide

/-! ### States -/

/-- An enabled SUB port. -/
def onPort : PortState := ⟨true, .empty, none, ⟨false, false, false⟩, false, [], 0, some .hold, none⟩

def entry (o : Owner) (st : CellState) (lt : LocalTime) (frame : Nat) (drift : Int) (advance : Nat) : Cell :=
  ⟨o, st, 100, 7, some ⟨lt, frame, drift, false⟩, advance, none, 0, false, 0⟩

def State.withCell (s : State) (i : Nat) (c : Cell) : State := s.setCell i (some c)

/-- Both subscription ports enabled at LT 1,000,000; A serves on entry 0, B on entry 1, and A has a neighbour 2. -/
def live : State :=
  State.withCell (State.withCell (State.withCell
    { State.reset with
      tb := { State.reset.tb with lt := 1000000 }, pi := ⟨onPort, onPort, State.reset.pi.policy⟩ }
    0 (entry .a .serving 900000 3 0 5)) 1 (entry .b .serving 800000 7 100 0)) 2 (entry .a .neighbour 700000 9 0 0)

/-- A port holds a command's frame, its slot PENDING. -/
def held (s : State) (i : Instr) : State :=
  match i.command? with
  | none => s
  | some (p, n) => s.setPort p { s.port p with slot := .pending n, buffer := some ⟨n, paramsOf i, .awake⟩ }

/-- The state after a step that gives one. -/
def after (s : State) (i : Instr) : State :=
  match exec i s with
  | .next t => t
  | .fault _ => s
  | .refused _ => s

/-- The state after a command was received and carried out. -/
def done (s : State) (i : Instr) : State := after (held s i) i

def atLt (s : State) (lt : LocalTime) : State := { s with tb := { s.tb with lt := lt } }

/-- A transaction is open on a port. -/
def opened (s : State) (p : Port) : State := after s (.csNFall p)

def shown : Transaction := ⟨true, [0, 0, 0, 0, 0], ⟨false, false, false⟩, false⟩

theorem executes_of {s : State} {p : Port} {n : Nat} {i : Instr}
    (h : (s.ready p i && decide ((s.port p).slot = .pending n)) = true) : s.executes p n i := by
  simpa [State.executes] using h

theorem records_all {s : State} {P : Nat → Record → Bool} (h : s.recordList.all (fun x => P x.1 x.2) = true) :
    ∀ k r, s.record? k = some r → P k r = true := by
  intro k r hr
  exact List.all_eq_true.mp h (k, r) ((mem_recordList s k r).mpr hr)

theorem exchanges_none {s : State} (h : s.exchangeList = []) : ∀ k x, s.exchange? k ≠ some x := by
  intro k x hx
  have := (mem_exchangeList s k x).mpr hx
  rw [h] at this
  cases this

theorem clearAt_of {s : State} {o : Owner} {f : Nat} {a : LocalTime} {len : Nat}
    (h : s.recordList.all (fun x => !x.2.occ.state.inTimeline || !s.conflicts o f a len x.2) = true) :
    s.clearAt o f a len := by
  intro k y hy ht
  have := records_all (P := fun _ x => !x.occ.state.inTimeline || !s.conflicts o f a len x) h k y hy
  simpa [ht] using this

/-- The slot of a port is not PENDING. -/
theorem idle_of {x : PortState} (h : (match x.slot with
    | .pending _ => true
    | .empty => false
    | .done _ _ _ => false
    | .disabled => false) = false) : ∀ m, x.slot ≠ .pending m := by
  intro m hm
  rw [hm] at h
  cases h

/-! ### Worked examples -/

/-- Section 2.4.1: a captured strobe names 812:4.3500; drift and advance are clamped. -/
def caught : State :=
  after (atLt (State.withCell live 3 ⟨.a, .neighbour, 1, 1, none, 0, none, 0, false, 0⟩) 7200051500) (.strobe .a)

theorem test_worked_anchor :
    ((done (atLt caught 7200400000) (.timeCell .subA ⟨3, ⟨812, 4, 3500⟩, 62000, 9000, 1, 0⟩)).cell? 3).map
        (fun c => (c.anchor, c.advance)) = some (some ⟨7200000000, 812, 50000, true⟩, 8191) := by
  decide

/-- Section 9.3.1: the sleep of the worked sequence. -/
def sleepy : State :=
  { State.reset with
    tb := { State.reset.tb with lt := 1000000000, ratio := 48001536, uncalibrated := false, residue := 12345 }
    sc := { State.reset.sc with state := .entering, params := ⟨48000, 66, 64, 983040, 20, 12, 2, 16⟩ } }

def window (o : Owner) (kind : Kind) (placed : LocalTime) (len : Nat) (st : OccState) : Record :=
  { owner := o, kind := kind, binding := .followsServing, start := anyTime, length := len, level := 5, period := none
    count := some 1, remaining := some 0, mask := 65535, slack := 1000, resumable := false, profile := 1, link := none
    served := 0, lost := 0
    occ :=
      { k := 0, state := st, entry := 0, nominal := some placed, advance := 0, placed := placed, shift := 0
        remaining := len, served := 0, suspensions := 0, level := 5, slack := 1000, profile := 1, resumable := false
        taken := true, firstRise := if st = .active then some placed else none, cutAt := none, shortfall := false
        resumeFloor := none, deadline := none, lateLoad := false, widened := false, notice := none } }

def dozing : State := after (sleepy.setRecord 7 (some (window .a .page 1030720000 24000 .granted))) .entryEdge

theorem test_worked_span : dozing.sc.hand.map (fun x => (x.span, x.margin, x.clamped)) = some (41875, 615, false) := by
  decide

def waking (s : State) (counter : Nat) : State := { s with sc := { s.sc with state := .waking, counter := counter } }

theorem test_worked_wake :
    let t := after (waking dozing 41874) .timerWake
    (t.tb.lt, t.tb.residue, t.wc.pendingWidening) = (1030671147, 42553, 615) := by
  decide

theorem test_worked_early_wake :
    let s := waking dozing 20065
    let t := after { s with sc := { s.sc with early := some (20066, .subB) } } .commandWake
    (t.tb.lt, t.tb.residue, t.wc.pendingWidening) = (1014697247, 54329, 294) := by
  decide

/-- Section 9.4.1: the accepted, the rejected and the filtered run. -/
def gate (n count : Nat) (uncalibrated : Bool) (ratio : Nat) (auto : Bool) : State :=
  { live with
    tb := { live.tb with
      run := some ⟨n, .counting, 2 ^ n - 1, count, auto⟩, uncalibrated := uncalibrated, ratio := ratio }
    sc := { live.sc with params := { live.sc.params with shift := 3 } } }

theorem test_worked_first_run :
    let t := after (gate 12 3000096 true 48000000 false) .gateClose
    (t.tb.ratio, t.tb.uncalibrated, t.tb.lastCal.ppm) = (48001536, false, 32) := by
  decide
theorem test_worked_rejected_run :
    let t := after (gate 12 2980000 false 48001536 false) .gateClose
    (t.tb.ratio, t.tb.lastCal.outcome, t.tb.lastCal.ppm) = (48001536, .rejected, -6667) := by
  decide
theorem test_worked_filtered_run :
    let t := after (gate 14 11999495 false 48000384 true) .gateClose
    (t.tb.ratio, t.tb.lastCal.ppm) = (48000084, -42) := by
  decide

/-- An event's record: kind, subject, reason, flags, detail, time in 12 bytes (R182). -/
theorem test_event_bytes :
    Event.bytes ⟨.woke, 1, .command, 0, 294, 1014697247⟩ = [19, 1, 14, 0, 1, 38, 0, 0, 0x3C, 0x7B, 0x0D, 0x1F] := by
  decide

/-- A poll of a port in each state of its slot (R178). -/
theorem test_response_disabled : (State.reset.port .subA).response = [3, 0, 0, 0, 0] := by decide

/-! ### Witnesses: frames and commands -/

theorem witness_1 : { State.reset with pending := [.refInTick, .slkInEdge] }.pending = .refInTick :: [.slkInEdge] := rfl

theorem witness_2 :
    (Instr.timeCell .subA ⟨23, ⟨65535, 255, 65535⟩, -2147483648, 65535, 255, 281474976710655⟩).wellFormed = true
      ∧ (Instr.timeCell .subA ⟨23, ⟨65535, 255, 65535⟩, -2147483648, 65535, 255, 281474976710655⟩).command?
        = some (.subA, 8) := by
  decide

def entering (s : State) : State := { s with sc := { s.sc with state := .entering } }

/-- A sleep in hand at count 20 of 100. -/
def asleep : State :=
  { live with
    sc := { live.sc with
      state := .asleep, refEn := false, counter := 20
      hand := some ⟨900000, 100, 62, .window, false, false, 3, 500, 48000000, true⟩ } }

def inTransaction (s : State) (p : Port) : State := s.setPort p { s.port p with transaction := some shown }

def takes (s : State) (p : Port) : Bool :=
  decide ((s.port p).transaction = some shown) && (s.port p).enabled && s.resetN
    && decide ((s.port p).slot = .empty)

theorem witness_3_command :
    (Instr.addCell .subB 100 5).wellFormed = true ∧ (Instr.addCell .subB 100 5).command? = some (.subB, 3)
      ∧ shown.judged = true := by
  decide
theorem witness_3_awake : takes (inTransaction live .subB) .subB = true ∧ live.sc.state = .awake := by decide
theorem witness_3_entering :
    takes (inTransaction (entering live) .subB) .subB = true ∧ (entering live).sc.state = .entering := by decide
theorem witness_3_asleep :
    takes (inTransaction asleep .subB) .subB = true ∧ asleep.sc.state = .asleep ∧ asleep.sc.hand.isSome = true := by
  decide

theorem witness_3_waking :
    let s := { asleep with sc := { asleep.sc with state := .waking } }
    takes (inTransaction s .subB) .subB = true ∧ s.sc.state = .waking := by
  decide

theorem witness_4_empty : (live.port .subA).transaction = none ∧ (live.port .subA).slot = .empty := by decide
theorem witness_4_disabled : (State.reset.port .subB).transaction = none ∧ (State.reset.port .subB).slot = .disabled := by
  decide
theorem witness_4_pending :
    ((held live (.vote .subA 1)).port .subA).transaction = none
      ∧ ((held live (.vote .subA 1)).port .subA).slot = .pending 30 := by
  decide
theorem witness_4_done :
    ((done live (.vote .subA 1)).port .subA).transaction = none
      ∧ ((done live (.vote .subA 1)).port .subA).slot = .done 30 .ok [1, 1] := by
  decide
theorem witness_4_sdo :
    ((opened live .subA).port .subA).transaction.isSome = true ∧ (opened live .subA).resetN = true
      ∧ ((after (opened live .subA) .chipReset).port .subA).transaction.isSome = true
      ∧ (after (opened live .subA) .chipReset).resetN = false := by
  decide
/-- R189: a copy taken before RESET_N fell is no longer shifted out; the slot there was DONE, whose first byte is 2. -/
theorem test_reset_silences_sdo :
    let s := opened (done live (.vote .subA 1)) .subA
    (s.sdo .subA 6, (after s .chipReset).sdo .subA 6) = (some true, some false) := by
  decide
theorem witness_4_reset : { live with resetN := false }.resetN = false ∧ (live.port .subA).transaction = none := by decide

theorem witness_5 : takes (inTransaction live .policy) .policy = true := by decide
theorem witness_5_bits : ([true] : List Bool) ≠ [] ∧ ([true] : List Bool).length % 8 ≠ 0 := by decide
theorem witness_5_short : (List.replicate 8 true) ≠ [] ∧ (List.replicate 8 true).length < 16 := by decide
theorem witness_5_length : bitsOfBytes [3, 97] = bitsOfBytes (3 :: 97 :: []) ∧ 96 < (97 : Byte).toNat := by decide
theorem witness_5_missing : ([1] : List Byte).length ≠ (2 : Byte).toNat := by decide
theorem witness_5_zero : (0 : Byte) = 0 ∧ (1 : Byte) ≠ 0 := by decide
theorem witness_5_collision :
    let s := inTransaction (held live (.vote .subA 1)) .subA
    (s.port .subA).transaction = some shown ∧ (s.port .subA).enabled = true ∧ (s.port .subA).slot = .pending 30
      ∧ (30 : Byte) ≠ 0 ∧ ([1] : List Byte).length = (1 : Byte).toNat ∧ (1 : Byte).toNat ≤ 96 := by
  decide

theorem witness_6_bad_command : takes (inTransaction live .policy) .policy = true ∧ 38 < (39 : Byte).toNat := by decide
theorem witness_6_wrong_port : (3 : Byte).toNat ≤ 38 ∧ listedOn (3 : Byte).toNat .policy = false := by decide
theorem witness_6_bad_param :
    (15 : Byte).toNat ≤ 38 ∧ listedOn (15 : Byte).toNat .policy = true
      ∧ lengthAccepted (15 : Byte).toNat .policy [] = false := by
  decide

theorem witness_7 :
    (held live (.vote .subA 7)).executes .subA 30 (.vote .subA 7)
      ∧ exec (.vote .subA 7) (held live (.vote .subA 7)) = .next (done live (.vote .subA 7))
      ∧ ((done live (.vote .subA 7)).port .subA).slot = .done 30 .badParam [] :=
  ⟨executes_of (by decide), rfl, by decide⟩

/-! ### Witnesses: resets and ports -/

theorem witness_9_awake : live.resetN = true ∧ live.sc.state = .awake := by decide
theorem witness_9_asleep : asleep.resetN = true ∧ asleep.sc.state = .asleep ∧ asleep.sc.hand.isSome = true := by decide
theorem witness_9_command : (held live (.resetChip .policy)).executes .policy 38 (.resetChip .policy) :=
  executes_of (by decide)

/-- A's window is on air, the only one of the timeline. -/
def onAir : State :=
  let s := (atLt live 1230000).setRecord 0 (some (window .a .page 1224000 24000 .active))
  { s with wc := { s.wc with rxEn := true } }

/-- An ACTIVE window of one owner alone. -/
theorem active_alone (s : State) (o : Owner) (h : Nat) (r : Record) (ht : s.timeline = [(h, r)]) :
    ∀ k q, s.active? = some (k, q) → q.owner = o → s.timeline = [(k, q)] := by
  intro k q hq _
  have := List.mem_of_find?_eq_some hq
  rw [ht] at this
  simp_all

theorem witness_10_reset_port : (held live (.resetPort .subA)).executes Owner.a.port 37 (.resetPort Owner.a.port)
    ∧ (held live (.resetPort .subA)).active? = none := ⟨executes_of (by decide), by decide⟩
theorem witness_10_active :
    (held onAir (.disablePort .policy 0)).executes .policy 36 (.disablePort .policy Owner.a.code)
      ∧ ∀ k q, (held onAir (.disablePort .policy 0)).active? = some (k, q) → q.owner = .a →
          (held onAir (.disablePort .policy 0)).timeline = [(k, q)] :=
  ⟨executes_of (by decide), active_alone _ .a 0 (window .a .page 1224000 24000 .active) (by decide)⟩

/-- Port A is disabled, and B's window is the next one. -/
def neighboured : State :=
  (State.setPort (live.setRecord 1 (some { window .b .page 1124000 24000 .granted with binding := .byIndex 1 })) .subA
    (State.reset.port .subA)).refreshWindows
theorem witness_10_disabled :
    let s := held State.reset (.disablePort .policy 0)
    s.executes .policy 36 (.disablePort .policy Owner.a.code) ∧ (s.port .subA).enabled = false ∧ s.active? = none
      ∧ s.refreshWindows = s := ⟨executes_of (by decide), by decide, by decide, by decide⟩
/-- R187: on a port already disabled WC's next window stays as it is, a READY load of the other owner's among it. -/
theorem test_disabled_port_changes_nothing :
    let s := { neighboured with wc := { neighboured.wc with next := neighboured.wc.next.map (fun x => { x with load := .ready }) } }
    (s.wc.next.map (·.load), (done s (.disablePort .policy 0)).wc.next.map (·.load)) = (some .ready, some .ready) := by
  decide

theorem witness_11_enabled : (held live (.enablePort .policy 1)).executes .policy 35 (.enablePort .policy 1) :=
  executes_of (by decide)
theorem witness_11_disabled :
    (held State.reset (.enablePort .policy 1)).executes .policy 35 (.enablePort .policy 1)
      ∧ ((held State.reset (.enablePort .policy 1)).port .subB).enabled = false := ⟨executes_of (by decide), by decide⟩
theorem witness_11_neither : (held live (.enablePort .policy 2)).executes .policy 35 (.enablePort .policy 2) :=
  executes_of (by decide)

theorem witness_12 :
    let s := held (after live (.strobe .a)) (.fetchEvents .subA)
    s.executes .subA 34 (.fetchEvents .subA) ∧ (s.port .subA).queue.length = 1 := ⟨executes_of (by decide), by decide⟩

/-! ### Witnesses: timebase -/

theorem witness_13_awake : live.sc.state = .awake := by decide
theorem witness_13_asleep :
    asleep.sc.state = .asleep ∧ asleep.sc.hand.map (fun x => x.span - x.warmUp) = some 97 ∧ asleep.sc.counter < 97 := by
  decide
theorem witness_13_waking :
    (waking asleep 97).sc.state = .waking ∧ (waking asleep 97).sc.early = none
      ∧ (waking asleep 97).sc.hand.map (·.span) = some 100 ∧ (waking asleep 97).sc.counter + 1 ≠ 100 := by
  decide
def roused : State := { waking asleep 20 with sc := { (waking asleep 20).sc with early := some (23, .subB) } }
theorem witness_13_early :
    roused.sc.state = .waking ∧ roused.sc.early = some (23, .subB) ∧ roused.sc.counter + 1 ≠ 23 := by decide

theorem witness_14_empty :
    (live.port .subA).enabled = true ∧ live.sc.state = .awake ∧ live.resetN = true
      ∧ (live.tb.captures.get .a).present = false := by
  decide
theorem witness_14_held : ((after live (.strobe .a)).tb.captures.get .a).present = true := by decide
theorem witness_14_disabled : (State.reset.port .subA).enabled = false := by decide
theorem witness_14_release :
    (held (after live (.strobe .a)) (.releaseCapture .subA)).executes Owner.a.port 2 (.releaseCapture Owner.a.port) :=
  executes_of (by decide)

theorem witness_15_sum : CellTime.valid ⟨2047, 11, 11999⟩ = true := by decide
theorem witness_15_untimed : { entry .a .serving 900000 3 0 5 with anchor := none }.anchor = none := by decide
theorem witness_15_anchor : (entry .a .serving 900000 3 0 5).anchor = some ⟨900000, 3, 0, false⟩ := by decide
/-- The first candidate of 5:3.0 after LT 1,000,000 is the first one examined. -/
theorem witness_15_first :
    before 1000000 (BitVec.ofInt 48 ((900000 : Int) + (((5 + 2048 - 3) % 2048 * 144000 + 3 * 12000 : Nat) : Int)
      + roundHalfAway ((((5 + 2048 - 3) % 2048 * 144000 + 3 * 12000 : Nat) : Int) * 0) 1000000000)) = true := by
  decide
/-- No candidate lies after a reference point more than ten cycles on. -/
theorem witness_15_out_of_reach :
    ∀ j, j ≤ 9 → before 4000000000 (BitVec.ofInt 48 ((900000 : Int)
      + ((((5 + 2048 - 3) % 2048 + 2048 * j) * 144000 + 3 * 12000 : Nat) : Int))) = false := by
  decide

/-! ### Witnesses: cells -/

theorem witness_16 : (held live (.addCell .subA 300 4)).executes Owner.a.port 3 (.addCell Owner.a.port 300 4)
    ∧ (held live (.addCell .subA 300 4)).cell? 3 = none ∧ (∀ j, j < 3 → (held live (.addCell .subA 300 4)).cell? j ≠ none) :=
  ⟨executes_of (by decide), by decide, by decide⟩
theorem witness_16_new : ¬∃ i y, live.cell? i = some y ∧ y.owner = .a ∧ y.channel = 300 ∧ y.code = 4 := by
  rintro ⟨i, y, hy, -, hc, -⟩
  have h1 : live.cellList.all (fun x => x.2.channel == 100) = true := by decide
  have h2 := List.all_eq_true.mp h1 (i, y) ((mem_cellList live i y).mpr hy)
  simp [hc] at h2
theorem witness_16_range : (held live (.addCell .subA 300 1024)).executes Owner.a.port 3 (.addCell Owner.a.port 300 1024) :=
  executes_of (by decide)
theorem witness_16_taken :
    (held live (.addCell .subA 100 7)).executes Owner.a.port 3 (.addCell Owner.a.port 100 7)
      ∧ live.cell? 0 = some (entry .a .serving 900000 3 0 5) := ⟨executes_of (by decide), by decide⟩

/-- Every entry belongs to one owner or the other: `n` of A, the rest of B. -/
def full (n : Nat) (m : Nat) : State :=
  { live with
    ct := { live.ct with
      cells := Vector.ofFn (fun (i : Fin 24) =>
        if i.val < n then some (entry .a .neighbour 900000 3 0 5)
        else if i.val < m then some (entry .b .neighbour 900000 3 0 5) else none) } }

theorem witness_16_quota :
    (held (full 16 16) (.addCell .subA 300 4)).executes Owner.a.port 3 (.addCell Owner.a.port 300 4)
      ∧ ((full 16 16).cellList.filter (fun x => x.2.owner == .a)).length = 16 := ⟨executes_of (by decide), by decide⟩
theorem witness_16_full :
    (held (full 12 24) (.addCell .subA 300 4)).executes Owner.a.port 3 (.addCell Owner.a.port 300 4)
      ∧ ((full 12 24).cellList.filter (fun x => x.2.owner == .a)).length < 16
      ∧ (∀ i, i < 24 → (full 12 24).cell? i ≠ none) := ⟨executes_of (by decide), by decide, by decide⟩

theorem witness_17_frees :
    let s := held live (.removeCell .subA 2)
    s.executes Owner.a.port 4 (.removeCell Owner.a.port 2) ∧ s.cell? 2 = some (entry .a .neighbour 700000 9 0 0)
      ∧ s.handover? .a = none := ⟨executes_of (by decide), by decide, by decide⟩
theorem witness_17_range : (held live (.removeCell .subA 24)).executes Owner.a.port 4 (.removeCell Owner.a.port 24) :=
  executes_of (by decide)
theorem witness_17_unknown :
    (held live (.removeCell .subA 23)).executes Owner.a.port 4 (.removeCell Owner.a.port 23) ∧ live.cell? 23 = none :=
  ⟨executes_of (by decide), by decide⟩
theorem witness_17_not_owner :
    (held live (.removeCell .subA 1)).executes Owner.a.port 4 (.removeCell Owner.a.port 1)
      ∧ (live.cell? 1).map (·.owner) = some .b := ⟨executes_of (by decide), by decide⟩
theorem witness_17_in_use :
    (held live (.removeCell .subA 0)).executes Owner.a.port 4 (.removeCell Owner.a.port 0)
      ∧ (live.cell? 0).map (·.state) = some .serving := ⟨executes_of (by decide), by decide⟩

/-- A serves nowhere. -/
def unserved : State := State.withCell live 0 { entry .a .neighbour 900000 3 0 5 with triggerCount := 3 }

theorem witness_18_set :
    let s := held unserved (.setServing .subA 0)
    s.executes Owner.a.port 6 (.setServing Owner.a.port 0) ∧ (s.cell? 0).map (fun c => (c.owner, c.state)) = some (.a, .neighbour)
      ∧ (s.cell? 0).bind (·.anchor) ≠ none ∧ s.serving? .a = none ∧ s.handover? .a = none :=
  ⟨executes_of (by decide), by decide, by decide, by decide, by decide⟩
theorem witness_18_clear :
    let s := held live (.clearServing .subA)
    s.executes Owner.a.port 7 (.clearServing Owner.a.port) ∧ s.serving? .a = some 0 ∧ s.recordList = [] ∧ s.exchangeList = []
      ∧ s.call? .a = none ∧ s.handover? .a = none ∧ s.revert? .a = none :=
  ⟨executes_of (by decide), by decide, by decide, by decide, by decide, by decide, by decide⟩

theorem witness_18_set_refused :
    (held live (.setServing .subA 24)).executes Owner.a.port 6 (.setServing Owner.a.port 24)
      ∧ (held live (.setServing .subA 23)).executes Owner.a.port 6 (.setServing Owner.a.port 23) ∧ live.cell? 23 = none
      ∧ (held live (.setServing .subA 1)).executes Owner.a.port 6 (.setServing Owner.a.port 1)
      ∧ (live.cell? 1).map (·.owner) = some .b
      ∧ (held live (.setServing .subA 2)).executes Owner.a.port 6 (.setServing Owner.a.port 2) ∧ live.serving? .a = some 0 :=
  ⟨executes_of (by decide), executes_of (by decide), by decide, executes_of (by decide), by decide, executes_of (by decide),
    by decide⟩
theorem witness_18_untimed :
    let s := held (State.withCell unserved 2 { entry .a .neighbour 700000 9 0 0 with anchor := none }) (.setServing .subA 2)
    s.executes Owner.a.port 6 (.setServing Owner.a.port 2) ∧ s.serving? .a = none ∧ s.handover? .a = none
      ∧ (s.cell? 2).map (fun c => (c.owner, c.state, c.anchor)) = some (.a, .neighbour, none) :=
  ⟨executes_of (by decide), by decide, by decide, by decide⟩
theorem witness_18_clear_refused :
    let s := held (live.setRecord 4 (some (window .a .page 1124000 24000 .granted))) (.clearServing .subA)
    (held unserved (.clearServing .subA)).executes Owner.a.port 7 (.clearServing Owner.a.port) ∧ unserved.serving? .a = none
      ∧ s.executes Owner.a.port 7 (.clearServing Owner.a.port) ∧ s.serving? .a = some 0
      ∧ s.record? 4 = some (window .a .page 1124000 24000 .granted) :=
  ⟨executes_of (by decide), by decide, executes_of (by decide), by decide, by decide⟩

def stamp : TimeCellParams := ⟨0, ⟨9, 2, 50⟩, 60000, 9000, 0, 1100000⟩
theorem witness_19_lt :
    let s := held live (.timeCell .subA stamp)
    s.executes Owner.a.port 8 (.timeCell Owner.a.port stamp) ∧ stamp.time.valid = true
      ∧ s.cell? 0 = some (entry .a .serving 900000 3 0 5) ∧ s.recordList = []
      ∧ ticksTo s.tb.lt (BitVec.ofNat 48 stamp.lt) ≤ 294912000 :=
  ⟨executes_of (by decide), by decide, by decide, by decide, by decide⟩
def stampCapture : TimeCellParams := ⟨0, ⟨9, 2, 50⟩, -60000, 9000, 1, 0⟩
theorem witness_19_capture :
    let s := held (after live (.strobe .a)) (.timeCell .subA stampCapture)
    s.executes Owner.a.port 8 (.timeCell Owner.a.port stampCapture) ∧ (s.tb.captures.get .a).present = true
      ∧ ticksTo (s.tb.captures.get .a).lt s.tb.lt ≤ 294912000 := ⟨executes_of (by decide), by decide, by decide⟩

/-- One record of A rests on entry 0. -/
def resting (state : OccState) : State := live.setRecord 4 (some (window .a .page 1124000 24000 state))
/-- The entry's anchor after that command: LT 1,100,000 less 24,050, frame 9. -/
def restamped : Cell := { entry .a .serving 1075950 9 50000 8191 with anchor := some ⟨1075950, 9, 50000, true⟩ }
theorem witness_19_member (x : OccState) (h : x = .granted ∨ x = .waiting) :
    let s := held (resting x) (.timeCell .subA stamp)
    let r := window .a .page 1124000 24000 x
    s.executes Owner.a.port 8 (.timeCell Owner.a.port stamp) ∧ s.recordList = [(4, r)] ∧ r.occ.taken = true
      ∧ r.binding = .followsServing ∧ s.handover? .a = none
      ∧ restamped.resolve { r.start with frame := (r.start.frame + r.occ.k * r.period.getD 0) % 2048 } s.tb.lt
          r.kind.isTx 0 = .found 295462669 0
      ∧ s.farEnough 295462669 = true ∧ before s.tb.lt (less 295462669 s.sc.params.lead) = true := by
  rcases h with rfl | rfl <;>
    exact ⟨executes_of (by decide), by decide, by decide, by decide, by decide, by decide +kernel, by decide, by decide⟩

def levels : List (Nat × Int) := [(0, -500), (1, -50), (0, -60)]
theorem witness_20_stores :
    let s := held unserved (.measureReport .subA levels)
    s.executes Owner.a.port 9 (.measureReport Owner.a.port levels) ∧ 1 ≤ levels.length ∧ levels.length ≤ 8
      ∧ (∀ x ∈ levels, x.1 ≤ 23) ∧ s.serving? .a = none :=
  ⟨executes_of (by decide +kernel), by decide, by decide, by decide, by decide⟩
/-- The serving entry has a level; a report of the neighbour compares with it. -/
def measured (count : Nat) : State :=
  State.withCell (State.withCell live 0 { entry .a .serving 900000 3 0 5 with level := some (-200) }) 2
    { entry .a .neighbour 700000 9 0 0 with triggerCount := count }
theorem witness_20_rises :
    let s := held (measured 3) (.measureReport .subA [(2, -100)])
    s.executes Owner.a.port 9 (.measureReport Owner.a.port [(2, -100)]) ∧ (2 : Nat) ≠ 0
      ∧ (s.cell? 2).map (fun c => (c.owner, c.state, c.triggerCount, c.candidate)) = some (.a, .neighbour, 3, false)
      ∧ s.serving? .a = some 0 ∧ (s.cell? 0).bind (·.level) = some (-200) ∧ (s.ct.triggers.get .a) = ⟨6, 4⟩ :=
  ⟨executes_of (by decide +kernel), by decide, by decide, by decide, by decide, by decide⟩
theorem witness_20_falls :
    (held (measured 3) (.measureReport .subA [(2, -195)])).executes Owner.a.port 9 (.measureReport Owner.a.port [(2, -195)]) :=
  executes_of (by decide +kernel)

theorem witness_21 : (held live (.setTrigger .subA 255 0)).executes Owner.a.port 10 (.setTrigger Owner.a.port 255 0) :=
  executes_of (by decide)

/-! ### Witnesses: reservations and the timeline -/

def plea : ReserveParams := ⟨2, 255, ⟨5, 3, 0⟩, 24000, 5, 0, 0, 65535, 1000, 1, 1⟩
theorem witness_22 :
    let s := held live (.reserve .subA plea)
    s.executes Owner.a.port 11 (.reserve Owner.a.port plea) ∧ reservableKind plea.kind = some .search
      ∧ plea.start.valid = true ∧ plea.length ≤ Kind.search.longest
      ∧ s.bindingEntry .a (bindingParam plea.binding) = .ok 0 ∧ s.timed 0 = true ∧ s.recordsOf .a < 40
      ∧ s.record? 0 = none ∧ s.resolveFor .a (bindingParam plea.binding) 0 plea.start s.tb.lt Kind.search.isTx 0
        = .found 0 1224000 0
      ∧ s.farEnough 1224000 = true ∧ s.clearAt .a plea.profile 1224000 plea.length :=
  ⟨executes_of (by decide), by decide, by decide, by decide, by rfl, by decide, by decide, by decide, by decide +kernel, by decide,
    clearAt_of (by decide)⟩

def pleaPeriodic : ReserveParams := ⟨0, 1, ⟨9, 3, 0⟩, 24000, 5, 32, 0, 65535, 1000, 0, 2⟩
/-- A holds a one-shot record at handle 0 and B a periodic one at handle 1. -/
def planned : State := done (done live (.reserve .subA plea)) (.reserve .subB pleaPeriodic)

theorem test_planned : planned.timeline.map (fun x => (x.1, x.2.occ.placed)) = [(1, 1124000), (0, 1224000)] := by decide

def change : AmendParams := ⟨1, 31, 7, 65535, 2, 5, 65535, 0⟩
theorem witness_23 :
    let s := held planned (.amend .subB change)
    s.executes Owner.b.port 12 (.amend Owner.b.port change)
      ∧ (s.record? 1).map (fun r => (r.owner, r.link, r.period)) = some (.b, none, some 32) ∧ change.selection % 32 ≠ 0 :=
  ⟨executes_of (by decide), by decide, by decide⟩

theorem witness_24_granted :
    let s := held planned (.cancel .subA 0)
    s.executes Owner.a.port 13 (.cancel Owner.a.port 0)
      ∧ (s.record? 0).map (fun r => (r.owner, r.link, r.occ.state)) = some (.a, none, .granted) :=
  ⟨executes_of (by decide), by decide⟩
theorem witness_24_active :
    let s := held onAir (.cancel .subA 0)
    s.executes Owner.a.port 13 (.cancel Owner.a.port 0)
      ∧ s.timeline = [(0, window .a .page 1224000 24000 .active)] := ⟨executes_of (by decide), by decide⟩

theorem witness_25 : (held live (.setPolicy .policy 0 16 16 12000)).executes .policy 15 (.setPolicy .policy 0 16 16 12000) :=
  executes_of (by decide)
theorem witness_25_refused :
    (held live (.setPolicy .policy 0 0 17 12001)).executes .policy 15 (.setPolicy .policy 0 0 17 12001) :=
  executes_of (by decide)

theorem witness_26_active :
    (window .a .page 1224000 24000 .active).occ.state = .active ∧ (window .b .page 1224000 24000 .granted).owner ≠ .a := by
  decide
theorem witness_26_granted : (window .b .page 1224000 24000 .granted).occ.state ≠ .active := by decide

/-- An arrival of A, out of the timeline, that overlaps B's one window. -/
def arriving (level slack : Nat) : Record :=
  let r := window .a .meas 1120000 24000 .withdrawn
  { r with occ := { r.occ with level := level, slack := slack } }
def contested (level slack : Nat) : Work :=
  Work.of ((live.setRecord 1 (some (window .b .page 1124000 24000 .granted))).setRecord 5 (some (arriving level slack)))
theorem witness_27 (level slack : Nat) (h : (level, slack) ∈ [(5, 100000), (1, 0), (9, 100000), (9, 0)]) :
    (contested level slack).st.record? 5 = some (arriving level slack)
      ∧ (contested level slack).st.timeline.filter (fun y =>
          (contested level slack).st.conflicts .a 1 1120000 24000 y.2) = [(1, window .b .page 1124000 24000 .granted)]
      ∧ (contested level slack).st.token 1 = .a := by
  simp only [List.mem_cons, List.not_mem_nil, or_false, Prod.mk.injEq] at h
  rcases h with ⟨rfl, rfl⟩ | ⟨rfl, rfl⟩ | ⟨rfl, rfl⟩ | ⟨rfl, rfl⟩ <;> decide
theorem windowsBounded_of {s : State}
    (h : s.timeline.all (fun x =>
      decide (ticksTo x.2.occ.placed x.2.occ.endLt + s.arb.guard < 17592186044416)) = true) : s.windowsBounded :=
  fun k y hy ht => of_decide_eq_true (List.all_eq_true.mp h (k, y) ((mem_timeline s k y).mpr ⟨hy, ht⟩))
theorem witness_27_bounded :
    (contested 5 100000).st.windowsBounded ∧ (contested 9 100000).st.windowsBounded
      ∧ (arriving 9 100000).occ.remaining + 2400 < 17592186044416 :=
  ⟨windowsBounded_of (by decide), windowsBounded_of (by decide), by decide⟩
/-- R75, R63: the loser, from 1,120,000, stands a guard after B's window, which ends at 1,148,000. -/
theorem test_loser_is_placed_after :
    let t := ((contested 9 100000).arbitrate 5 (arriving 9 100000) .generated).1.st
    ((t.record? 5).map (fun r => (r.occ.placed, r.occ.shift))) = some (1150400, 30400) := by
  decide

/-- The same arrival meets B's window on air, which began at 1,090,000; LT is 1,110,000, or nearer by 10,000 − 1,200. -/
def intruding (level : Nat) (lt : LocalTime) : Work :=
  Work.of (((atLt live lt).setRecord 1 (some (window .b .page 1090000 48000 .active))).setRecord 5
    (some (arriving level 100000)))
theorem witness_27_active (level : Nat) (lt : LocalTime)
    (h : (level, lt) ∈ [(0, (1110000 : LocalTime)), (0, 1118800), (9, 1110000)]) :
    (intruding level lt).st.record? 5 = some (arriving level 100000)
      ∧ (intruding level lt).st.timeline.filter (fun y => (intruding level lt).st.conflicts .a 1 1120000 24000 y.2)
        = [(1, window .b .page 1090000 48000 .active)]
      ∧ (intruding level lt).st.arb.t1 = 2 ∧ (intruding level lt).st.arb.guard ≤ 12000 := by
  simp only [List.mem_cons, List.not_mem_nil, or_false, Prod.mk.injEq] at h
  rcases h with ⟨rfl, rfl⟩ | ⟨rfl, rfl⟩ | ⟨rfl, rfl⟩ <;> decide
theorem witness_27_cuts : before 1110000 (less 1120000 2400) = true ∧ before 1118800 (less 1120000 2400) = false := by decide

/-- R78, R79: the cut falls a guard before the arrival; nearer than that it is taken at once and ends the window. -/
theorem test_active_is_cut :
    let far := ((intruding 0 1110000).arbitrate 5 (arriving 0 100000) .generated).1.st.record? 1
    let near := ((intruding 0 1118800).arbitrate 5 (arriving 0 100000) .generated).2
    (far.map (fun r => (r.occ.cutAt, r.occ.shortfall)), near) = (some (some 1117600, false), [.ended 1 0 .cut]) := by
  decide

/-- R52: a mask amended while an index is WAITING leaves that index taken, as it was generated. -/
theorem test_mask_waits_for_the_next_index :
    let r := { window .b .page 1124000 24000 .waiting with period := some 32, remaining := none }
    let s := done (live.setRecord 1 (some r)) (.amend .subB ⟨1, 8, 0, 0, 0, 2, 0, 0⟩)
    let w := ((Work.of s).takeMember 1 0 (.found 1 1300000 0)).2
    ((s.record? 1).map (·.mask), w) = (some 2, [.offer 1 0 .member]) := by
  decide

theorem witness_28_found : planned.search .a 1 24000 1123000 2000000 = some 1150400 := by decide
theorem witness_28_clear : before 2000000 1300000 = false ∧ planned.clearAt .a 1 1300000 24000 :=
  ⟨by decide, clearAt_of (by decide)⟩
theorem witness_28_late : before 2000000 2000001 = true := by decide
theorem witness_28_bounded :
    planned.windowsBounded ∧ 24000 + planned.arb.guard < 17592186044416 ∧ ticksTo 1123000 2000000 < 17592186044416 :=
  ⟨windowsBounded_of (by decide), by decide, by decide⟩
theorem witness_28_none : planned.search .a 1 24000 1123000 1150399 = none := by decide

/-! ### Witnesses: reads -/

theorem witness_29_time :
    let s := held planned (.readTime .policy)
    s.executes .policy 1 (.readTime .policy) ∧ (s.port .policy).buffer.isSome = true := ⟨executes_of (by decide), by decide⟩
theorem witness_29_policy : (held planned (.readPolicy .subB)).executes .subB 16 (.readPolicy .subB) :=
  executes_of (by decide)
theorem witness_29_timeline : (held planned (.readTimeline .subA 63)).executes .subA 17 (.readTimeline .subA 63) :=
  executes_of (by decide)
theorem witness_29_position : (held planned (.readTimeline .subA 64)).executes .subA 17 (.readTimeline .subA 64) :=
  executes_of (by decide)
theorem witness_29_sleep : (held planned (.readSleep .policy)).executes .policy 32 (.readSleep .policy) :=
  executes_of (by decide)
theorem witness_29_handover :
    (held planned (.readHandover .policy (some 1))).executes .policy 29 (.readHandover .policy (some 1)) :=
  executes_of (by decide)
theorem witness_29_owner : (held planned (.readCall .policy (some 2))).executes .policy 22 (.readCall .policy (some 2)) :=
  executes_of (by decide)

def talk : CallParams := ⟨⟨7, 0, 0⟩, 6000, 12000, 6000, 1, 3, 2, 0, 4, 5⟩
/-- A's call runs, with its bursts at handles 2 and 3. -/
def calling : State := done planned (.callStart .subA talk)
theorem witness_29_call :
    let s := held calling (.readCall .subA none)
    s.executes .subA 22 (.readCall .subA none) ∧ (s.call? .a).bind (·.rxHandle) = some 2 ∧ (s.record? 2).isSome = true :=
  ⟨executes_of (by decide), by decide, by decide⟩
theorem witness_29_call_ended :
    let s := held (calling.setRecord 2 none) (.readCall .subA none)
    s.executes .subA 22 (.readCall .subA none) ∧ (s.call? .a).bind (·.rxHandle) = some 2 ∧ s.record? 2 = none :=
  ⟨executes_of (by decide), by decide, by decide⟩

theorem witness_30_cell : (held live (.readCell .subA 23)).executes Owner.a.port 5 (.readCell Owner.a.port 23) :=
  executes_of (by decide)
theorem witness_30_record :
    (held planned (.readReservation .subA 63)).executes Owner.a.port 14 (.readReservation Owner.a.port 63) :=
  executes_of (by decide)
theorem witness_30_own :
    let s := held planned (.readReservation .subA 0)
    s.executes Owner.a.port 14 (.readReservation Owner.a.port 0) ∧ (s.record? 0).map (·.owner) = some .a :=
  ⟨executes_of (by decide), by decide⟩
theorem witness_30_exchange : (held planned (.readExchange .subB 4)).executes Owner.b.port 25 (.readExchange Owner.b.port 4) :=
  executes_of (by decide)

/-! ### Witnesses: windows and the link -/

theorem witness_31 :
    (held planned (.setProfile .subA 15 63 65535 7 3)).executes Owner.a.port 18 (.setProfile Owner.a.port 15 63 65535 7 3) :=
  executes_of (by decide)
theorem witness_31_refused :
    (held planned (.setProfile .subA 15 64 0 0 0)).executes Owner.a.port 18 (.setProfile Owner.a.port 15 64 0 0 0) :=
  executes_of (by decide)

/-- A's record alone, at the load point of its window. -/
def lone : State := done live (.reserve .subA plea)
def loading : State := after (atLt lone 1221600) .loadBegin
theorem witness_32 : loading.wc.load.map (·.start) = some 1221600 ∧ (1221615 : LocalTime) = plus 1221600 15 := by decide
theorem witness_33_next :
    (atLt lone 1221600).wc.load = none ∧ (atLt lone 1221600).counting = true ∧ (atLt lone 1221600).active? = none
      ∧ (atLt lone 1221600).wc.next.map (fun x => (x.handle, x.load)) = some (0, .owed)
      ∧ (atLt lone 1221600).reached (less 1224000 2400) = true := by
  decide
theorem witness_33_active :
    onAir.wc.load = none ∧ onAir.active? = some (0, window .a .page 1224000 24000 .active) ∧ onAir.wc.activeLoad = .owed := by
  decide
theorem witness_33_complete :
    (atLt loading 1221760).wc.load.map (·.serves) = some (some (0, 0))
      ∧ (atLt loading 1221760).reached (plus 1221600 160) = true := by
  decide
theorem witness_33_late :
    let s := atLt (after onAir .loadBegin) 1230160
    s.wc.load.map (·.serves) = some (some (0, 0)) ∧ (s.record? 0).map (·.occ.state) = some .active
      ∧ s.reached (plus 1230000 160) = true := by
  decide

/-- R89: the line that rose at 1,230,000 was cut at once at that LT, as its load began; the load completes after the rise.
A load that begins for the remainder, whose line has not risen again, sets no flag. -/
def cutAtRise (rise : Option LocalTime) : State :=
  let s := (atLt lone 1230160).updateOcc 0 (fun x => { x with state := .suspended, placed := 1300000, suspensions := 1 })
  { s with wc := { s.wc with
      load := some ⟨.a, 1, 0, 1230000, some (0, 0), rise, false, false⟩, lastEnd := some 1230100 } }
theorem test_cut_at_the_rise_is_late :
    ((after (cutAtRise (some 1230000)) .loadComplete).record? 0).map (·.occ.lateLoad) = some true := by decide
theorem test_remainder_loads_in_time :
    ((after (cutAtRise none) .loadComplete).record? 0).map (·.occ.lateLoad) = some false := by decide

theorem witness_34 :
    let s := atLt lone 1200000
    (s.record? 0).map (fun r => (r.occ.notice, r.occ.state.inTimeline)) = some (some 1200000, true)
      ∧ s.reached 1200000 = true ∧ s.counting = true ∧ atOrBefore s.tb.lt 1224000 = true := by
  decide
theorem witness_34_behind : (atLt lone 1230000).reached 1200000 = true ∧ atOrBefore 1230000 1224000 = false := by decide

theorem witness_35 :
    let s := atLt lone 1224000
    s.active? = none ∧ s.wc.next.map (fun x => (x.handle, x.rise)) = some (0, 1224000) ∧ s.reached 1224000 = true
      ∧ (s.record? 0).isSome = true ∧ s.counting = true := by
  decide

/-- The load of the window that rises is still in flight, and notes the rise. -/
theorem witness_35_loads :
    let s := atLt (after (atLt lone 1223900) .loadBegin) 1224000
    (s.wc.load.map (fun l => (l.serves, l.rise)), (after s .activation).wc.load.map (·.rise))
      = (some (some (0, 0), none), some (some 1224000)) := by
  decide

theorem witness_36_end :
    let s := held onAir (.endWindow .subA 0)
    s.executes Owner.a.port 19 (.endWindow Owner.a.port 0) ∧ s.timeline = [(0, window .a .page 1224000 24000 .active)] :=
  ⟨executes_of (by decide), by decide⟩
theorem witness_36_part :
    (atLt onAir 1248000).timeline = [(0, window .a .page 1224000 24000 .active)]
      ∧ (atLt onAir 1248000).reached (plus 1224000 24000) = true := by
  decide

/-- A periodic window of A on air, at the end of its part. -/
def recurring : Record := { window .a .page 1224000 24000 .active with period := some 32, remaining := none }
def parting : State := (atLt live 1248000).setRecord 0 (some recurring)
theorem witness_37 :
    parting.timeline = [(0, recurring)] ∧ parting.reached (plus 1224000 24000) = true
      ∧ recurring.mask.getLsbD (1 % 16) = true
      ∧ parting.resolveFor .a .followsServing (parting.generationEntry recurring) ⟨37, 3, 0⟩ 1224000 false 0
        = .found 0 5832000 0
      ∧ parting.farEnough 5832000 = true ∧ before parting.tb.lt (less 5832000 parting.sc.params.lead) = true := by
  decide

/-- The same record from a start that its next index has nearly reached. -/
def hurried : Record :=
  let r := window .a .page 1224000 24000 .active
  { r with period := some 1, remaining := some 9, start := ⟨4, 1, 6000⟩, occ := { r.occ with nominal := some 1062000 } }
def hurrying : State := (atLt live 1248000).setRecord 0 (some hurried)
theorem witness_37_late :
    hurrying.timeline = [(0, hurried)] ∧ hurrying.reached (plus 1224000 24000) = true
      ∧ hurrying.resolveFor .a .followsServing (hurrying.generationEntry hurried) ⟨5, 1, 6000⟩ 1062000 false 0
        = .found 0 1206000 0
      ∧ hurrying.farEnough 1206000 = false ∧ (hurrying.serving? .a).getD 0 = 0
      ∧ hurrying.resolveFor .a .followsServing 0 ⟨6, 1, 6000⟩ 1206000 false 0 = .found 0 1350000 0
      ∧ hurrying.farEnough 1350000 = true ∧ before hurrying.tb.lt (less 1350000 hurrying.sc.params.lead) = true := by
  decide
def unanchored : State :=
  State.withCell parting 0 { entry .a .serving 900000 3 0 5 with anchor := none }
theorem witness_37_untimed :
    unanchored.timeline = [(0, recurring)]
      ∧ unanchored.resolveFor .a .followsServing (unanchored.generationEntry recurring) ⟨37, 3, 0⟩ 1224000 false 0
        = .untimed 0 := by
  decide

/-- A window on air with a cut at 1,230,000. -/
def cutting (resumable : Bool) : Record :=
  let r := window .a .meas 1224000 24000 .active
  { r with
    occ := { r.occ with
      resumable := resumable, cutAt := some 1230000, resumeFloor := some 1300000, deadline := some 2000000 } }
theorem witness_38 (x : Bool) :
    let s := (atLt live 1230000).setRecord 0 (some (cutting x))
    s.timeline = [(0, cutting x)] ∧ s.reached 1230000 = true ∧ ticksTo 1224000 1230000 < 24000
      ∧ before (less 2000000 18000) 1300000 = false ∧ before s.tb.lt (less 1300000 s.sc.params.lead) = true := by
  cases x <;> decide

/-! ### Witnesses: calls and exchanges -/

theorem witness_39 :
    let s := held live (.callStart .subA talk)
    s.executes Owner.a.port 20 (.callStart Owner.a.port talk) ∧ talk.rxStart.valid = true ∧ s.serving? .a = some 0
      ∧ s.timed 0 = true ∧ s.call? .a = none ∧ s.recordList = []
      ∧ s.resolveFor .a .followsServing 0 talk.rxStart s.tb.lt false 0 = .found 0 1476000 0
      ∧ s.resolveFor .a .followsServing 0 (talk.rxStart.add talk.txDelay) (less 1476000 1) true 0 = .found 0 1487995 5
      ∧ s.farEnough 1476000 = true ∧ s.farEnough 1487995 = true
      ∧ (before 1487995 (plus (plus 1476000 6000) 2400) && before 1476000 (plus 1487995 (6000 + 2400))) = false :=
  ⟨executes_of (by decide), by decide, by decide, by decide, by decide, by decide, by decide +kernel, by decide, by decide, by decide,
    by decide⟩

theorem witness_40 :
    let s := held calling (.callEnd .subA)
    s.executes Owner.a.port 21 (.callEnd Owner.a.port)
      ∧ (s.call? .a).map (fun c => (c.state, c.rxHandle, c.txHandle)) = some (.running, some 2, some 3)
      ∧ (s.record? 2).map (fun r => (r.kind, r.link, r.occ.state)) = some (.callRx, some .call, .granted)
      ∧ (s.record? 3).map (fun r => (r.kind, r.link, r.occ.state)) = some (.callTx, some .call, .granted) :=
  ⟨executes_of (by decide), by decide, by decide, by decide⟩
/-- The receive burst is on air. -/
def talking : State := calling.updateOcc 2 (fun x => { x with state := .active, firstRise := some x.placed })
theorem witness_40_active :
    let s := held talking (.callEnd .subA)
    s.executes Owner.a.port 21 (.callEnd Owner.a.port) ∧ (s.record? 2).map (·.occ.state) = some .active :=
  ⟨executes_of (by decide), by decide⟩

theorem witness_40_transmits :
    let s := held (calling.updateOcc 3 (fun x => { x with state := .active })) (.callEnd .subA)
    s.executes Owner.a.port 21 (.callEnd Owner.a.port)
      ∧ (s.record? 2).map (·.occ.state) = some .granted ∧ (s.record? 3).map (·.occ.state) = some .active :=
  ⟨executes_of (by decide), by decide⟩

def call : Call := ⟨.running, talk, some 2, some 3, [4, 3], some 5, 7, 0, 0⟩
theorem witness_41 : (calling.setCall .a (some call)).call? .a = some call ∧ call.yields.length ≤ call.params.allowance := by
  decide
def burst : Record := { window .a .callRx 1476000 6000 .active with link := some .call }
theorem witness_42 :
    (calling.setCall .a (some call)).call? burst.owner = some call ∧ call.state = .running ∧ burst.kind = .callRx := by
  decide

def submission : ExchangeParams := ⟨⟨20, 0, 0⟩, ⟨21, 0, 0⟩, 3, 1, [⟨1, 700, 5000, 1⟩]⟩
theorem witness_43 :
    let s := held live (.exchangeSubmit .subA submission)
    s.executes Owner.a.port 23 (.exchangeSubmit Owner.a.port submission)
      ∧ (submission.latest.inCycle + 294912000 - submission.earliest.inCycle) % 294912000 ≤ 3060000
      ∧ s.serving? .a = some 0 ∧ s.timed 0 = true ∧ s.handover? .a = none ∧ s.exchangesOf .a < 3 ∧ s.recordList = []
      ∧ s.exchange? 0 = none
      ∧ s.resolveOn 0 submission.earliest s.tb.lt false 0 = .found 3348000 0
      ∧ s.resolveOn 0 ((submission.earliest.add 0).add 700) (less 3348000 1) true 0 = .found 3348695 5
      ∧ s.farEnough 3348695 = true ∧ before s.tb.lt (less 3348695 s.sc.params.lead) = true :=
  ⟨executes_of (by decide), by decide, by decide, by decide, by decide, by decide, by decide, by decide, by decide +kernel, by decide,
    by decide, by decide⟩

/-- A chosen candidate, by its index. -/
def chosenAt : Found → Option Nat
  | .chosen j _ _ => some j
  | _ => none
theorem witness_44 : chosenAt (live.searchCandidates .a 0 submission 3347999 4 0) = some 0 := by decide

/-- A's exchange 0 has its step at handle 0. -/
def exchanging : State := done live (.exchangeSubmit .subA submission)
theorem witness_45 :
    let s := held exchanging (.exchangeCancel .subA 0)
    s.executes Owner.a.port 24 (.exchangeCancel Owner.a.port 0)
      ∧ (s.exchange? 0).map (fun x => (x.owner, x.cancelPending, x.steps.map (·.handle))) = some (.a, false, [some 0])
      ∧ (s.record? 0).map (fun r => (r.link, r.occ.state)) = some (some (.exchange 0), .granted) :=
  ⟨executes_of (by decide), by decide, by decide⟩
theorem witness_45_active :
    let s := held (exchanging.updateOcc 0 (fun x => { x with state := .active })) (.exchangeCancel .subA 0)
    s.executes Owner.a.port 24 (.exchangeCancel Owner.a.port 0) ∧ (s.record? 0).map (·.occ.state) = some .active :=
  ⟨executes_of (by decide), by decide⟩

/-- An exchange of two steps, at handles 0 and 1. -/
def pair : ExchangeParams := ⟨⟨20, 0, 0⟩, ⟨21, 0, 0⟩, 3, 2, [⟨1, 700, 5000, 1⟩, ⟨0, 40000, 5000, 1⟩]⟩
def paired (pendingCancel : Bool) : Work :=
  Work.of ((done live (.exchangeSubmit .subA pair)).updateExchange 0 (fun x => { x with cancelPending := pendingCancel }))
theorem witness_42_exchange (x : Bool) :
    ((paired x).st.exchange? 0).map (fun y => (y.cancelPending, y.steps.map (·.handle))) = some (x, [some 0, some 1])
      ∧ ((paired x).st.record? 0).map (fun r => (r.link, r.binding, r.occ.state))
        = some (some (.exchange 0), .followsServing, .granted)
      ∧ ((paired x).st.record? 1).map (fun r => (r.link, r.binding, r.occ.state))
        = some (some (.exchange 0), .followsServing, .granted) := by
  cases x <;> decide
/-- R127, R128: step 1 displaced names itself and no step done; the record of step 0 ends. -/
theorem test_step_abandons :
    let t := ((paired false).informExchange 0 1 (.denied true)).st
    (t.exchange? 0, t.record? 0, (t.port .subA).queue.map (fun v => (v.kind, v.reason, v.detail)))
      = (none, none, [(.exchAbandoned, .displaced, 1)]) := by
  decide

/-- R128: with a cancel pending, step 1 of three ended DONE before step 0, the lowest step not DONE is step 0. -/
theorem test_cancel_names_the_lowest_step :
    let steps : List StepParams := [⟨1, 700, 5000, 1⟩, ⟨0, 40000, 5000, 1⟩, ⟨0, 80000, 5000, 1⟩]
    let s := done live (.exchangeSubmit .subA ⟨⟨20, 0, 0⟩, ⟨21, 0, 0⟩, 3, 3, steps⟩)
    let w := Work.of (s.updateExchange 0 (fun x => { x with cancelPending := true }))
    let t := (w.informExchange 0 1 .done).st
    (t.exchange? 0, (t.port .subA).queue.map (fun v => (v.kind, v.reason, v.flags, v.detail)))
      = (none, [(.exchAbandoned, .cancelled, 1, 256)]) := by
  decide

/-! ### Witnesses: handover and anchors -/

def switchAt : CellTime := ⟨5, 0, 0⟩
theorem witness_46_handover :
    let s := held live (.handover .subA 2 switchAt)
    s.executes Owner.a.port 26 (.handover Owner.a.port 2 switchAt) ∧ switchAt.valid = true ∧ s.serving? .a = some 0
      ∧ s.handover? .a = none ∧ s.resolveOn 0 switchAt s.tb.lt false 0 = .found 1188000 0 ∧ s.exchangeList = []
      ∧ s.recordList = [] ∧ s.cell? 2 = some (entry .a .neighbour 700000 9 0 0) :=
  ⟨executes_of (by decide), by decide, by decide, by decide, by decide +kernel, by decide, by decide, by decide⟩
/-- A follower of A on entry 0, with its start. -/
def follower (start : CellTime) (placed : LocalTime) (period left : Option Nat) (state : OccState) : Record :=
  { window .a .page placed 24000 state with start := start, period := period, remaining := left }
/-- One that stays after the switch on the target, and one whose first index falls before it there. -/
def rebound : Record := follower ⟨20, 0, 0⟩ 3348000 none (some 0) .granted
def overtaken (period left : Option Nat) : Record := follower ⟨12, 0, 0⟩ 2196000 period left .granted
def rebinding (r : Record) : State := held (live.setRecord 4 (some r)) (.handover .subA 2 switchAt)
theorem witness_46_member :
    let s := rebinding rebound
    s.executes Owner.a.port 26 (.handover Owner.a.port 2 switchAt) ∧ s.exchangeList = [] ∧ s.recordList = [(4, rebound)]
      ∧ s.resolveOn 0 rebound.start s.tb.lt false 0 = .found 3348000 0 ∧ before 3348000 1188000 = false
      ∧ s.resolveOn 2 rebound.start s.tb.lt false 0 = .found 2284000 0 ∧ before 2284000 1188000 = false
      ∧ s.farEnough 2284000 = true ∧ before s.tb.lt (less 2284000 s.sc.params.lead) = true :=
  ⟨executes_of (by decide), by decide, by decide, by decide +kernel, by decide, by decide +kernel, by decide, by decide,
    by decide⟩
theorem witness_46_overtaken (x : Option Nat × Option Nat) (h : x ∈ [(none, some 0), (some 8, some 3)]) :
    let r := overtaken x.1 x.2
    let s := rebinding r
    s.executes Owner.a.port 26 (.handover Owner.a.port 2 switchAt) ∧ s.exchangeList = [] ∧ s.recordList = [(4, r)]
      ∧ s.resolveOn 0 r.start s.tb.lt false 0 = .found 2196000 0 ∧ before 2196000 1188000 = false
      ∧ s.resolveOn 2 r.start s.tb.lt false 0 = .found 1132000 0 ∧ before 1132000 1188000 = true ∧ r.link = none
      ∧ s.resolveOn 0 ⟨20, 0, 0⟩ 1132000 false 0 = .found 3348000 0
      ∧ s.resolveOn 2 ⟨20, 0, 0⟩ 1132000 false 0 = .found 2284000 0 := by
  simp only [List.mem_cons, List.not_mem_nil, or_false] at h
  rcases h with rfl | rfl <;>
    exact ⟨executes_of (by decide), by decide, by decide, by decide +kernel, by decide, by decide +kernel, by decide, by decide,
      by decide +kernel, by decide +kernel⟩
/-- R141, R142: the one index is lost with reason SWITCH, and the record ends, or its next index stands on the target. -/
theorem test_overtaken_is_missed :
    let t := after (rebinding (overtaken none (some 0))) (.handover .subA 2 switchAt)
    let u := after (rebinding (overtaken (some 8) (some 3))) (.handover .subA 2 switchAt)
    t.record? 4 = none
      ∧ (t.port .subA).queue = [⟨.missed, 4, .missedSwitch, 0, 1, 1000000⟩, ⟨.recordEnded, 4, .exhausted, 0, 0, 1000000⟩]
      ∧ (u.record? 4).map (fun q => (q.occ.k, q.occ.placed, q.lost)) = some (1, 2284000, 1)
      ∧ (u.port .subA).queue = [⟨.missed, 4, .missedSwitch, 0, 1, 1000000⟩] := by
  decide +kernel

/-- The exchange of two steps meets a switch at 20:1.0, between their ends. -/
def straddling : State := held (paired false).st (.handover .subA 2 ⟨20, 1, 0⟩)
theorem witness_46_straddling :
    straddling.executes Owner.a.port 26 (.handover Owner.a.port 2 ⟨20, 1, 0⟩)
      ∧ straddling.resolveOn 0 ⟨20, 1, 0⟩ straddling.tb.lt false 0 = .found 3360000 0
      ∧ straddling.exchangeList.map (fun x => (x.1, x.2.owner, x.2.entry)) = [(0, .a, 0)]
      ∧ (straddling.exchange? 0).map (fun x => x.steps.map (·.handle)) = some [some 0, some 1]
      ∧ (straddling.exchange? 0).map (fun x => x.steps.map (·.ending)) = some [none, none]
      ∧ straddling.recordList.map (fun x => (x.1, x.2.link, x.2.binding, x.2.occ.nominal))
        = [(0, some (.exchange 0), .followsServing, some 3348695), (1, some (.exchange 0), .followsServing, some 3388000)]
      ∧ before 3360000 (plus 3388000 5000) = true ∧ before 3360000 (plus 3348695 5000) = false
      ∧ before 3348695 3360000 = true :=
  ⟨executes_of (by decide), by decide +kernel, by decide +kernel, by decide +kernel, by decide +kernel, by decide +kernel,
    by decide, by decide, by decide⟩
/-- R143, R128: step 1 is the failing one and none is done; both records go. -/
theorem test_straddling_is_abandoned :
    let t := after straddling (.handover .subA 2 ⟨20, 1, 0⟩)
    t.exchangeList = [] ∧ t.recordList = []
      ∧ (t.port .subA).queue = [⟨.exchAbandoned, 0, .straddling, 0, 1, 1000000⟩] := by
  decide +kernel

/-- A handover of A is pending, and then the revert window it opens. -/
def handing : State := done live (.handover .subA 2 switchAt)
def switched : State := after (atLt handing 1188000) (.handoverSwitch .a)
theorem witness_46_revert :
    let s := held switched (.handoverRevert .subA ⟨30, 0, 0⟩)
    s.executes Owner.a.port 28 (.handoverRevert Owner.a.port ⟨30, 0, 0⟩) ∧ s.serving? .a = some 2
      ∧ s.revert? .a = some ⟨296100000, 0⟩ ∧ s.timed 0 = true
      ∧ s.resolveOn 2 ⟨30, 0, 0⟩ s.tb.lt false 0 = .found 3724000 0 ∧ before 3724000 296100000 = true :=
  ⟨executes_of (by decide), by decide, by decide, by decide, by decide, by decide⟩
theorem witness_46_closed :
    let s := held (switched.setRevert .a (some ⟨3724000, 0⟩)) (.handoverRevert .subA ⟨30, 0, 0⟩)
    s.executes Owner.a.port 28 (.handoverRevert Owner.a.port ⟨30, 0, 0⟩) ∧ s.revert? .a = some ⟨3724000, 0⟩
      ∧ before 3724000 3724000 = false := ⟨executes_of (by decide), by decide, by decide⟩
theorem witness_46_cancel :
    let s := held handing (.handoverCancel .subA)
    s.executes Owner.a.port 27 (.handoverCancel Owner.a.port) ∧ (s.handover? .a).isSome = true ∧ s.recordList = [] :=
  ⟨executes_of (by decide), by decide, by decide⟩
theorem witness_46_none :
    let s := held live (.handoverCancel .subA)
    s.executes Owner.a.port 27 (.handoverCancel Owner.a.port) ∧ s.handover? .a = none := ⟨executes_of (by decide), by decide⟩

theorem witness_47_handover :
    let s := atLt handing 1188000
    s.handover? .a = some ⟨.handover, 0, 2, switchAt, 1188000, false⟩ ∧ s.reached 1188000 = true ∧ s.counting = true
      ∧ s.recordList = [] := by
  decide +kernel
/-- A follower of A waits on the source. -/
def waiting : State :=
  atLt (handing.setRecord 4 (some (follower ⟨20, 0, 0⟩ 0 none (some 0) .waiting))) 1188000
theorem witness_47_member :
    waiting.handover? .a = some ⟨.handover, 0, 2, switchAt, 1188000, false⟩ ∧ waiting.reached 1188000 = true
      ∧ waiting.counting = true ∧ waiting.recordList = [(4, follower ⟨20, 0, 0⟩ 0 none (some 0) .waiting)]
      ∧ waiting.resolveOn 2 ⟨20, 0, 0⟩ waiting.tb.lt false 0 = .found 2284000 0 ∧ waiting.farEnough 2284000 = true
      ∧ before waiting.tb.lt (less 2284000 waiting.sc.params.lead) = true := by
  decide +kernel
theorem witness_47_revert :
    let s := atLt (done switched (.handoverRevert .subA ⟨30, 0, 0⟩)) 3724000
    s.handover? .a = some ⟨.revert, 2, 0, ⟨30, 0, 0⟩, 3724000, false⟩ ∧ s.reached 3724000 = true := by
  decide
theorem witness_47_close :
    (atLt switched 296100000).revert? .a = some ⟨296100000, 0⟩ ∧ (atLt switched 296100000).reached 296100000 = true
      ∧ switched.counting = true := by
  decide

theorem witness_48 :
    let s := atLt handing 2359996000
    (s.cell? 2).bind (·.anchor) = some ⟨700000, 9, 0, false⟩ ∧ s.reached (plus 700000 2359296000) = true
      ∧ s.recordList = [] ∧ (s.handover? .a).map (·.target) = some 2 := by
  decide

/-- The anchor of entry 0 expires with one record of A on it, with or without a handover from the entry pending. -/
def expiring (r : Record) (ho : Option Handover) : State :=
  atLt ((live.setRecord 4 (some r)).setHandover .a ho) 2360196000
def pendingHandover : Handover := ⟨.handover, 0, 2, switchAt, 1188000, false⟩
theorem witness_48_ends (x : OccState) (y : Option Nat) (ho : Option Handover)
    (h : x = .granted ∨ x = .suspended) (hy : y = none ∨ y = some 0) (hho : ho = none ∨ ho = some pendingHandover) :
    let r := follower ⟨20, 0, 0⟩ 3348000 (some 4) y x
    let s := expiring r ho
    (s.cell? 0).bind (·.anchor) = some ⟨900000, 3, 0, false⟩ ∧ s.counting = true
      ∧ s.reached (plus 900000 2359296000) = true ∧ s.recordList = [(4, r)] ∧ s.handover? .a = ho ∧ s.serving? .a = some 0
      ∧ r.owner = .a ∧ r.link = none ∧ r.binding = .followsServing ∧ r.occ.entry = 0 := by
  rcases h with rfl | rfl <;> rcases hy with rfl | rfl <;> rcases hho with rfl | rfl <;> decide
/-- R58: the last of a record's indexes ends it; any other is followed by the next one, WAITING. -/
theorem test_expiry_ends_the_occurrence :
    let t := after (expiring (follower ⟨20, 0, 0⟩ 3348000 (some 4) (some 0) .suspended) none) (.anchorExpiry 0)
    let u := after (expiring (follower ⟨20, 0, 0⟩ 3348000 (some 4) none .granted) none) (.anchorExpiry 0)
    t.record? 4 = none
      ∧ (t.port .subA).queue = [⟨.stale, 0, .none, 0, 1, 2360196000⟩, ⟨.windowEnd, 4, .untimed, 32, 0, 2360196000⟩,
          ⟨.missed, 4, .untimed, 0, 1, 2360196000⟩, ⟨.recordEnded, 4, .exhausted, 0, 0, 2360196000⟩]
      ∧ (u.record? 4).map (fun q => (q.occ.k, q.occ.state, q.lost)) = some (1, .waiting, 1)
      ∧ (u.port .subA).queue = [⟨.stale, 0, .none, 0, 1, 2360196000⟩, ⟨.missed, 4, .untimed, 1, 1, 2360196000⟩] := by
  decide

/-! ### Witnesses: sleep and calibration -/

theorem witness_49 : (held live (.vote .policy 1)).executes .policy 30 (.vote .policy 1) := executes_of (by decide)
theorem witness_49_refused : (held live (.vote .subB 2)).executes .subB 30 (.vote .subB 2) := executes_of (by decide)

def outOfRange : SleepParams := ⟨240001, 0, 7, 255, 501, 9, 4, 255⟩
theorem witness_50 : (held live (.setSleep .policy outOfRange)).executes .policy 31 (.setSleep .policy outOfRange) :=
  executes_of (by decide)

theorem witness_51 : (held live (.calibrate .policy)).executes .policy 33 (.calibrate .policy) ∧ live.tb.run = none :=
  ⟨executes_of (by decide), by decide⟩
theorem witness_51_busy :
    let s := held (done live (.calibrate .policy)) (.calibrate .policy)
    s.executes .policy 33 (.calibrate .policy) ∧ s.tb.run = some ⟨12, .waitingEdge, 0, 0, false⟩ :=
  ⟨executes_of (by decide), by decide⟩
theorem witness_51_gate : (done live (.calibrate .policy)).tb.run.map (·.gate) = some .waitingEdge := by decide

theorem witness_52 :
    (gate 12 3000096 true 48000000 false).tb.run = some ⟨12, .counting, 4095, 3000096, false⟩ ∧ 4095 + 1 = 2 ^ 12 := by
  decide
theorem witness_52_bounds : 47760000 ≤ 2985000 * 2 ^ (16 - 12) ∧ 48240000 < 3015001 * 2 ^ (16 - 12) := by decide

/-- Every port votes ALLOW. -/
def agreed : State := done (done (done live (.vote .subA 1)) (.vote .subB 1)) (.vote .policy 1)
theorem witness_53 :
    agreed.sc.state = .awake ∧ agreed.sc.spanShort = false ∧ agreed.recordList = [] ∧ agreed.tb.run = none
      ∧ (agreed.pi.subA.vote, agreed.pi.subB.vote, agreed.pi.policy.vote) = (some .allow, some .allow, some .allow) := by
  decide
theorem witness_53_slots (p : Port) : ∀ m, (agreed.port p).slot ≠ .pending m := by
  cases p <;> exact idle_of (by decide)
theorem witness_53_held : live.sc.state = .awake ∧ (live.port .policy).vote ≠ some .allow := by decide

theorem witness_54_none :
    let s := entering { State.reset with sc := { State.reset.sc with params := ⟨24000, 66, 64, 68, 50, 12, 2, 16⟩ } }
    s.sc.state = .entering ∧ s.recordList = [] ∧ s.cellList = [] ∧ max s.sc.params.spanMin (s.sc.params.warmUp + 2) = 68
      ∧ s.sc.params.spanMax = 68 := by
  decide
theorem witness_54_none_short :
    (entering { State.reset with sc := { State.reset.sc with params := ⟨24000, 66, 64, 67, 50, 12, 2, 16⟩ } }).sc.params.spanMax
      < 68 := by
  decide
/-- The worked target, the only candidate. -/
def aimed (placed : LocalTime) : State := sleepy.setRecord 7 (some (window .a .page placed 24000 .granted))
theorem witness_54_sleeps :
    (aimed 1030720000).sc.state = .entering
      ∧ (aimed 1030720000).timeline = [(7, window .a .page 1030720000 24000 .granted)]
      ∧ (aimed 1030720000).cellList = [] ∧ before 1000000000 1030720000 = true
      ∧ (30671385 * 65536 - 12345) / 48001536 = 41875 := by
  decide
theorem witness_54_short :
    (aimed 1000095000).timeline = [(7, window .a .page 1000095000 24000 .granted)]
      ∧ (46998 * 65536 - 12345) / 48001536 = 64 := by
  decide

/-- At the edge the word that began at LT − 150 serves the SUSPENDED window, whose part has been cut since. -/
theorem witness_54_late_load :
    let s := (aimed 1030720000).updateOcc 7 (fun x => { x with state := .suspended, served := 140 })
    let t := { s with wc := { s.wc with
      load := some ⟨.a, 1, 0, 999999850, some (7, 0), some 999999850, false, false⟩, lastEnd := some 999999990 } }
    t.sc.state = .entering ∧ t.wc.load.map (fun l => ticksTo l.start t.tb.lt) = some 150
      ∧ t.wc.load.map (·.rise) = some (some 999999850) ∧ before 999999850 t.tb.lt = true
      ∧ ((after t .entryEdge).record? 7).map (·.occ.lateLoad) = some true := by
  decide

theorem witness_55_warm_up :
    let s := { asleep with sc := { asleep.sc with counter := 96 } }
    s.sc.state = .asleep ∧ s.sc.hand.map (fun x => x.span - x.warmUp) = some (s.sc.counter + 1) := by
  decide
def counted : State := { asleep with sc := { asleep.sc with counter := 97 } }
theorem witness_55_counted :
    counted.sc.state = .asleep ∧ counted.sc.hand.map (fun x => x.span - x.warmUp) = some counted.sc.counter := by
  decide
/-- R163: a frame that finds the count S − Ws sets the wake count S, as the edge taken first would. -/
theorem test_frame_at_warm_up : (counted.wakeFor .subA).sc.early = some (100, .subA) := by decide
theorem witness_55_timer :
    let s := waking asleep 99
    s.sc.state = .waking ∧ s.sc.early = none ∧ s.sc.hand.map (·.span) = some (s.sc.counter + 1) := by
  decide
theorem witness_55_command :
    let s := { roused with sc := { roused.sc with counter := 22 } }
    s.sc.state = .waking ∧ s.sc.early = some (s.sc.counter + 1, .subB) := by
  decide

/-! ### Witnesses: invariants -/

/-- The reset state meets the hypotheses of the five invariants (O60 states it), and a step keeps it as it is. -/
theorem witness_56 :
    State.reset.ratioSound ∧ State.reset.policySound ∧ State.reset.sleepSound ∧ State.reset.oscillatorSound := by
  refine ⟨?_, ?_, ?_, ?_⟩
  · unfold State.ratioSound; decide
  · unfold State.policySound; decide
  · unfold State.sleepSound; decide
  · unfold State.oscillatorSound; decide

theorem witness_57 : State.reset.queuesSound := fun p => by cases p <;> decide

theorem witness_58 : State.reset.airSound := by
  have none_at : ∀ i : Fin 64, State.reset.record? i = none := by decide
  have empty : ∀ h r, State.reset.record? h ≠ some r := fun h r hr => by
    by_cases hh : h < 64
    · rw [none_at ⟨h, hh⟩] at hr; cases hr
    · rw [State.record?, Vector.getElem?_eq_none (Nat.le_of_not_lt hh)] at hr; cases hr
  have low : ∀ x, ¬State.reset.airs x := fun _ ⟨h, r, hr, _⟩ => empty h r hr
  exact ⟨fun h _ r _ hr => absurd hr (empty h r), by simp [low]; decide, by simp [low]; decide, by decide⟩

theorem witness_59 : State.reset.portsSound :=
  ⟨by decide, fun p => by cases p <;> unfold PortState.outSound <;> decide⟩

theorem witness_step : step State.reset = .next State.reset := rfl

end Sys2Proof.Tests
end

/-! ## Timebase, cell times, captures, resets and the reads of the part -/

section
namespace Sys2Proof.Machine

/-! ### Frames of a step -/

/-- Rewriting TB and SC leaves every other part. -/
theorem sameExcept_tb_sc (s : State) (tb : Timebase) (sc : SleepController) :
    s.sameExcept { s with tb := tb, sc := sc } [.tb, .sc] :=
  ⟨by simp, fun _ => rfl, fun _ => rfl, fun _ => rfl, fun _ => rfl, fun _ => rfl, fun _ => rfl, by simp,
    fun _ _ => rfl, fun _ => rfl, fun _ => rfl, fun _ => rfl⟩

/-- Rewriting TB alone leaves every other part. -/
theorem sameExcept_tb (s : State) (tb : Timebase) : s.sameExcept { s with tb := tb } [.tb] :=
  ⟨by simp, fun _ => rfl, fun _ => rfl, fun _ => rfl, fun _ => rfl, fun _ => rfl, fun _ => rfl, fun _ => rfl,
    fun _ _ => rfl, fun _ => rfl, fun _ => rfl, fun _ => rfl⟩

/-- Taking a free value leaves every other part. -/
theorem sameExcept_free (s : State) (n : Nat) : s.sameExcept { s with free := n } [.free] :=
  ⟨fun _ => rfl, fun _ => rfl, fun _ => rfl, fun _ => rfl, fun _ => rfl, fun _ => rfl, fun _ => rfl, fun _ => rfl,
    fun _ _ => rfl, fun _ => rfl, by simp, fun _ => rfl⟩

theorem sameExcept_refl (s : State) (parts : List Block) : s.sameExcept s parts :=
  ⟨fun _ => rfl, fun _ => rfl, fun _ => rfl, fun _ => rfl, fun _ => rfl, fun _ => rfl, fun _ => rfl, fun _ => rfl,
    fun _ _ => rfl, fun _ => rfl, fun _ => rfl, fun _ => rfl⟩

/-- Writing a port adds it to the parts that differ, and no other. -/
theorem sameExcept_setPort {s u : State} {parts : List Block} (p : Port) (x : PortState) (h : s.sameExcept u parts) :
    s.sameExcept (u.setPort p x) (parts ++ [.port p]) := by
  have inParts : ∀ b, b ∉ parts ++ [Block.port p] → b ∉ parts := fun b hb hm => hb (List.mem_append_left _ hm)
  obtain ⟨tb, ct, rt, arb, wc, su, hu, sc, ports, resetN, free, pending⟩ := h
  refine ⟨fun hb => tb (inParts _ hb), fun hb => ct (inParts _ hb), fun hb => rt (inParts _ hb),
    fun hb => arb (inParts _ hb), fun hb => wc (inParts _ hb), fun hb => su (inParts _ hb),
    fun hb => hu (inParts _ hb), fun hb => sc (inParts _ hb), fun q hb => ?_, fun hb => resetN (inParts _ hb),
    fun hb => free (inParts _ hb), fun hb => pending (inParts _ hb)⟩
  have other : q ≠ p := by rintro rfl; simp at hb
  rw [port_setPort, if_neg other, ports q (inParts _ hb)]

/-! ### One value for each owner -/

@[simp] theorem Owner.other_ne (o : Owner) : o.other ≠ o := by cases o <;> simp [Owner.other]

@[simp] theorem Owner.owner?_port (o : Owner) : o.port.owner? = some o := by cases o <;> rfl

end Sys2Proof.Machine
end

section
namespace Sys2Proof

/-! ### Cell times and their resolution (R5 to R10) -/

/-- R5: a sum has every field in its range, whatever was added. -/
theorem CellTime.add_valid (t : CellTime) (n : Nat) : (t.add n).valid = true := by
  have fields : (t.add n).frame < 2048 ∧ (t.add n).slot < 12 ∧ (t.add n).offset < 12000 :=
    ⟨Nat.mod_lt _ (by decide), Nat.mod_lt _ (by decide), Nat.mod_lt _ (by decide)⟩
  simp [CellTime.valid, fields]

/-- R5: the sum names the instant `n` cell ticks later, whole cycles dropped. -/
theorem CellTime.inCycle_add (t : CellTime) (n : Nat) : (t.add n).inCycle = (t.inCycle + n) % 294912000 := by
  simp only [CellTime.inCycle, CellTime.add]
  omega

end Sys2Proof

namespace Sys2Proof.Machine

/-- R7: the rounded quotient lies within half a unit of the exact one, and an exact half goes away from zero. -/
theorem roundHalfAway_spec (num : Int) (den : Nat) (hd : 0 < den) :
    2 * (num - roundHalfAway num den * den).natAbs ≤ den
      ∧ (2 * (num - roundHalfAway num den * den).natAbs = den →
          num.natAbs < (roundHalfAway num den * den).natAbs) := by
  have hq : roundHalfAway num den * den
      = if num < 0 then -(((2 * num.natAbs + den) / (2 * den) * den : Nat) : Int)
        else (((2 * num.natAbs + den) / (2 * den) * den : Nat) : Int) := by
    simp only [roundHalfAway]
    split
    · rw [Int.neg_mul, Int.natCast_mul]
    · rw [Int.natCast_mul]
  have hlow := Nat.div_mul_le_self (2 * num.natAbs + den) (2 * den)
  have hhigh := Nat.lt_div_mul_add (a := 2 * num.natAbs + den) (b := 2 * den) (by omega)
  rw [Nat.mul_left_comm] at hlow hhigh
  rw [hq]
  generalize (2 * num.natAbs + den) / (2 * den) * den = product at hlow hhigh ⊢
  split <;> omega

theorem searchCycles_zero (a : Anchor) (t : CellTime) (ref : LocalTime) (frames : Nat) :
    searchCycles a t ref 0 frames
      = if before ref (candidateAt a t frames) then some (candidateAt a t frames) else none := rfl

theorem searchCycles_succ (a : Anchor) (t : CellTime) (ref : LocalTime) (left frames : Nat) :
    searchCycles a t ref (left + 1) frames
      = if before ref (candidateAt a t frames) then some (candidateAt a t frames)
        else searchCycles a t ref left (frames + 2048) := rfl

/-- R9: with no candidate after the reference point the search fails. -/
theorem searchCycles_none (a : Anchor) (t : CellTime) (ref : LocalTime) (left frames : Nat)
    (h : ∀ j, j ≤ left → before ref (candidateAt a t (frames + 2048 * j)) = false) :
    searchCycles a t ref left frames = none := by
  have h0 : before ref (candidateAt a t frames) = false := h 0 (Nat.zero_le _)
  induction left generalizing frames with
  | zero => simp [searchCycles_zero, h0]
  | succ left ih =>
    have later : ∀ j, j ≤ left → before ref (candidateAt a t (frames + 2048 + 2048 * j)) = false := fun j hj => by
      rw [show frames + 2048 + 2048 * j = frames + 2048 * (j + 1) by omega]
      exact h (j + 1) (by omega)
    simp [searchCycles_succ, h0, ih (frames + 2048) later (later 0 (Nat.zero_le _))]

/-- R8: the search answers the first candidate after the reference point. -/
theorem searchCycles_first (a : Anchor) (t : CellTime) (ref : LocalTime) (left frames j : Nat) (hj : j ≤ left)
    (hit : before ref (candidateAt a t (frames + 2048 * j)) = true)
    (miss : ∀ i, i < j → before ref (candidateAt a t (frames + 2048 * i)) = false) :
    searchCycles a t ref left frames = some (candidateAt a t (frames + 2048 * j)) := by
  induction j generalizing left frames with
  | zero =>
    have h0 : before ref (candidateAt a t frames) = true := hit
    cases left with
    | zero => simp [searchCycles_zero, h0]
    | succ left => simp [searchCycles_succ, h0]
  | succ j ih =>
    obtain ⟨left, rfl⟩ : ∃ k, left = k + 1 := ⟨left - 1, by omega⟩
    have h0 : before ref (candidateAt a t frames) = false := miss 0 (Nat.succ_pos j)
    have shift : ∀ i, frames + 2048 * (i + 1) = frames + 2048 + 2048 * i := fun i => by omega
    rw [searchCycles_succ, h0, shift]
    exact ih left (frames + 2048) (by omega) (shift j ▸ hit) (fun i hi => shift i ▸ miss (i + 1) (by omega))

theorem resolve_untimed (c : Cell) (t : CellTime) (ref : LocalTime) (tx : Bool) (earlier : Nat) (h : c.anchor = none) :
    c.resolve t ref tx earlier = .untimed := by
  simp [Cell.resolve, h]

/-- R9: an anchored entry whose search fails is out of reach. -/
theorem resolve_outOfReach (c : Cell) (a : Anchor) (t : CellTime) (ref : LocalTime) (tx : Bool) (earlier : Nat)
    (ha : c.anchor = some a)
    (h : searchCycles a t (if tx then plus ref earlier else ref) 9 ((t.frame + 2048 - a.frame % 2048) % 2048) = none) :
    c.resolve t ref tx earlier = .outOfReach := by
  simp [Cell.resolve, ha, h]

/-- R8, R10: an anchored entry answers what its search finds, less the advance for TX. -/
theorem resolve_found (c : Cell) (a : Anchor) (t : CellTime) (ref : LocalTime) (tx : Bool) (earlier : Nat)
    (x : LocalTime) (ha : c.anchor = some a)
    (h : searchCycles a t (if tx then plus ref earlier else ref) 9 ((t.frame + 2048 - a.frame % 2048) % 2048)
      = some x) :
    c.resolve t ref tx earlier = if tx then .found (less x c.advance) c.advance else .found x 0 := by
  simp [Cell.resolve, ha, h]

/-- Settles O15: the sums by arithmetic on the fields, the resolution by the search's two outcomes. -/
theorem cellTimesAddAndResolve : Obligations.CellTimesAddAndResolve := by
  refine ⟨fun t n _ => ⟨t.add_valid n, t.inCycle_add n, rfl, rfl, rfl⟩, fun c t ref tx earlier =>
    ⟨resolve_untimed c t ref tx earlier, fun a ha => ⟨fun miss => ?_, fun j hj hit miss => ?_⟩⟩,
    fun num => roundHalfAway_spec num 1000000000 (by decide)⟩
  · exact resolve_outOfReach c a t ref tx earlier ha (searchCycles_none a t _ 9 _ miss)
  · exact resolve_found c a t ref tx earlier _ ha (searchCycles_first a t _ 9 _ j hj hit miss)

end Sys2Proof.Machine
end

section
namespace Sys2Proof.Machine

/-! ### Captures (R12 to R15) -/

theorem execStrobe_taken (s : State) (o : Owner) (he : (s.port o.port).enabled = true) (ha : s.sc.state = .awake)
    (hr : s.resetN = true) : exec (.strobe o) s = .next (s.takeStrobe o) := by
  simp [exec, execStrobe, he, ha, hr]

/-- R14: a strobe that meets a disabled port, a part that is not AWAKE or a held reset is ignored. -/
theorem execStrobe_ignored (s : State) (o : Owner)
    (h : (s.port o.port).enabled = false ∨ s.sc.state ≠ .awake ∨ s.resetN = false) :
    exec (.strobe o) s = .next s := by
  rcases h with h | h | h <;> simp [exec, execStrobe, h]

/-- R12: an EMPTY slot captures LT and posts CAPTURED. -/
theorem takeStrobe_empty (s : State) (o : Owner) (h : (s.tb.captures.get o).present = false) :
    s.takeStrobe o
      = State.setPort
          { s with tb := { s.tb with
              captures := s.tb.captures.set o ⟨true, s.tb.lt, (s.tb.captures.get o).overrun⟩ } }
          o.port ((s.port o.port).push ⟨.captured, 0, .none, 0, 0, s.tb.lt⟩) := by
  simp only [State.takeStrobe, h]
  rfl

/-- R13: a HELD slot notes the overrun. -/
theorem takeStrobe_held (s : State) (o : Owner) (h : (s.tb.captures.get o).present = true) :
    s.takeStrobe o
      = { s with tb := { s.tb with
            captures := s.tb.captures.set o { s.tb.captures.get o with overrun := true } } } := by
  simp [State.takeStrobe, h]

/-- What R12 and R13 say of one taken strobe. -/
theorem takeStrobe_spec (s : State) (o : Owner) :
    (s.takeStrobe o).tb = { s.tb with captures := (s.takeStrobe o).tb.captures }
      ∧ (s.takeStrobe o).tb.captures.get o.other = s.tb.captures.get o.other
      ∧ ((s.tb.captures.get o).present = false →
          (s.takeStrobe o).tb.captures.get o = ⟨true, s.tb.lt, (s.tb.captures.get o).overrun⟩
            ∧ (s.takeStrobe o).port o.port = (s.port o.port).push ⟨.captured, 0, .none, 0, 0, s.tb.lt⟩
            ∧ s.sameExcept (s.takeStrobe o) [.tb, .port o.port])
      ∧ ((s.tb.captures.get o).present = true →
          (s.takeStrobe o).tb.captures.get o = ⟨true, (s.tb.captures.get o).lt, true⟩
            ∧ s.sameExcept (s.takeStrobe o) [.tb]) := by
  cases h : (s.tb.captures.get o).present with
  | false =>
    rw [takeStrobe_empty s o h]
    exact ⟨rfl, by simp, fun _ => ⟨by simp, by simp, sameExcept_setPort _ _ (sameExcept_tb s _)⟩, by simp⟩
  | true =>
    rw [takeStrobe_held s o h]
    exact ⟨rfl, by simp, by simp, fun _ => ⟨by simp [h], sameExcept_tb s _⟩⟩

/-- R15: the slot as it stood, an absent LT as zero. -/
theorem captureResult_eq (c : Capture) :
    c.result = [if c.present then 1 else 0] ++ bytesOfNat 6 (if c.present then c.lt.toNat else 0)
      ++ [if c.overrun then 1 else 0] := by
  cases h : c.present <;> simp [Capture.result, flagByte, ltBytes, h]

theorem exec_releaseCapture (p : Port) (s : State) :
    exec (.releaseCapture p) s = s.command p (.releaseCapture p) (fun t =>
      withOwner p t (fun o => accept (t.emptyCapture o) (t.tb.captures.get o).result)) := rfl

/-- R15: RELEASE CAPTURE answers the slot and empties it. -/
theorem execReleaseCapture_executes (s : State) (o : Owner) (n : Nat)
    (h : s.executes o.port n (.releaseCapture o.port)) :
    exec (.releaseCapture o.port) s
      = .next ((s.emptyCapture o).setPort o.port
          ((s.port o.port).answered n .ok (s.tb.captures.get o).result)) := by
  rw [exec_releaseCapture]
  exact command_executes h (by simp [withOwner, accept]) h.2

/-- Settles O14, by the two states of the slot and R15's answer. -/
theorem captureSlotFillsOnceAndIsReleased : Obligations.CaptureSlotFillsOnceAndIsReleased := by
  refine ⟨fun s o => ⟨fun he ha hr => ⟨_, execStrobe_taken s o he ha hr, takeStrobe_spec s o⟩,
    execStrobe_ignored s o⟩, fun s o n h => ⟨_, execReleaseCapture_executes s o n h, rfl, ?_, ?_, ?_, ?_,
      sameExcept_setPort _ _ (sameExcept_tb s _)⟩⟩
  · simp [State.emptyCapture, Capture.emptied]
  · simp [State.emptyCapture, Capture.emptied]
  · simp [State.emptyCapture]
  · simp [captureResult_eq]

end Sys2Proof.Machine
end

section
namespace Sys2Proof.Machine

/-! ### The clocks (R1, R160, R172) -/

theorem counting_iff (s : State) : s.counting = true ↔ s.sc.state = .awake ∨ s.sc.state = .entering := by
  simp [State.counting]

/-- R1, R172: a tick while LT counts. -/
theorem execRefInTick_counting (s : State) (h : s.counting = true) :
    exec .refInTick s = .next { s with tb := { s.tb with
      lt := s.tb.lt + 1
      run := s.tb.run.map (fun run =>
        if run.gate = .counting then { run with count := run.count + 1 } else run) } } := by
  simp [exec, execRefInTick, h]

theorem execRefInTick_still (s : State) (h : s.counting = false) : exec .refInTick s = .next s := by
  simp [exec, execRefInTick, h]

/-- R1: LT wraps at 2^48. -/
theorem localTime_toNat_add_one (x : LocalTime) : (x + 1).toNat = (x.toNat + 1) % 281474976710656 := by
  simp [BitVec.toNat_add]

/-- A slow edge with no row of its own counts in an open gate whose 2^n-th edge it is not (R172). -/
theorem calRun_plainEdge (run : CalRun) :
    (if run.plainEdge then { run with edges := run.edges + 1 } else run)
      = if run.gate = .counting ∧ run.edges + 1 ≠ 2 ^ run.exponent then { run with edges := run.edges + 1 }
        else run := by
  simp [CalRun.plainEdge]

theorem plainEdge_asleep (sc : SleepController) (hand : SleepHand) (h : sc.hand = some hand) (hs : sc.state = .asleep) :
    sc.plainEdge = decide (sc.counter < hand.span - hand.warmUp) := by
  simp [SleepController.plainEdge, h, hs]

theorem plainEdge_waking (sc : SleepController) (hand : SleepHand) (h : sc.hand = some hand) (hs : sc.state = .waking) :
    sc.plainEdge = !(sc.counter + 1 == (sc.early.map (·.1)).getD hand.span) := by
  simp [SleepController.plainEdge, h, hs]

theorem plainEdge_counting (sc : SleepController) (hs : sc.state = .awake ∨ sc.state = .entering) :
    sc.plainEdge = false := by
  cases h : sc.hand <;> rcases hs with hs | hs <;> simp [SleepController.plainEdge, h, hs]

/-- R1, R172: a tick counts in LT and in an open gate while LT counts, and changes nothing in a sleep. -/
theorem refInTick_counts (s : State) :
    ∃ t, exec .refInTick s = .next t ∧ s.sameExcept t [.tb]
      ∧ (s.sc.state = .awake ∨ s.sc.state = .entering →
          t.tb.lt.toNat = (s.tb.lt.toNat + 1) % 281474976710656
            ∧ t.tb = { s.tb with lt := t.tb.lt, run := t.tb.run }
            ∧ t.tb.run = s.tb.run.map (fun run =>
                if run.gate = .counting then { run with count := run.count + 1 } else run))
      ∧ (s.sc.state = .asleep ∨ s.sc.state = .waking → t = s) := by
  by_cases h : s.sc.state = .awake ∨ s.sc.state = .entering
  · refine ⟨_, execRefInTick_counting s ((counting_iff s).mpr h), sameExcept_tb s _,
      fun _ => ⟨localTime_toNat_add_one s.tb.lt, rfl, rfl⟩, fun sleeping => ?_⟩
    rcases h with h | h <;> simp [h] at sleeping
  · have still : s.counting = false := by simpa [State.counting] using h
    exact ⟨s, execRefInTick_still s still, sameExcept_refl s _, fun awake => absurd awake h, fun _ => rfl⟩

/-- Settles O13: the tick above, and the slow edge by the part's sleep state. -/
theorem clocksCount : Obligations.ClocksCount := by
  refine fun s => ⟨refInTick_counts s, _, rfl, sameExcept_tb_sc s _ _, ?_, rfl, fun hand hh => ⟨?_, ?_, ?_⟩, ?_⟩
  · simp only [calRun_plainEdge]
  · intro hs hc
    simp [plainEdge_asleep s.sc hand hh hs, hc]
  · intro hs he hc
    simp [plainEdge_waking s.sc hand hh hs, he, hc]
  · intro c p hs he hc
    simp [plainEdge_waking s.sc hand hh hs, he, hc]
  · intro hs
    simp [plainEdge_counting s.sc hs]

end Sys2Proof.Machine
end

section
namespace Sys2Proof.Machine

/-! ### Power-on reset and chip reset (R2, R175, R189) -/

/-- Settles O8: every value is read off the reset state; the tables are empty entry by entry. -/
theorem powerOnResetGivesResetValues : Obligations.PowerOnResetGivesResetValues := by
  intro s
  refine ⟨s.powerOn, rfl, rfl, rfl, rfl, rfl, rfl, rfl, fun i => ?_, fun h => ?_, fun i => ?_, fun o => ?_, rfl, rfl,
    rfl, rfl, fun c => ?_, rfl, rfl, rfl, rfl, rfl, rfl, rfl, rfl, rfl, rfl, rfl, rfl, rfl⟩
  · simp only [State.cell?, State.powerOn, State.reset, Vector.getElem?_replicate]
    split <;> rfl
  · simp only [State.record?, State.powerOn, State.reset, Vector.getElem?_replicate]
    split <;> rfl
  · simp only [State.exchange?, State.powerOn, State.reset, Vector.getElem?_replicate]
    split <;> rfl
  · cases o <;> exact ⟨rfl, rfl, rfl, rfl, rfl, rfl⟩
  · simp only [State.token, State.powerOn, State.reset, Vector.getElem?_replicate]
    split <;> rfl

theorem leaveSleep_counting (s : State) (h : s.sc.state = .awake ∨ s.sc.state = .entering) : s.leaveSleep = s := by
  rcases h with h | h <;> simp [State.leaveSleep, h]

/-- R2, R165, R167: a sleep broken off by a reset advances LT by the slow count reached and is recorded. -/
theorem leaveSleep_sleeping (s : State) (hand : SleepHand) (h : s.sc.state = .asleep ∨ s.sc.state = .waking)
    (hh : s.sc.hand = some hand) :
    s.leaveSleep = { s.advanceLt hand s.sc.counter with
      sc := { s.sc with
        last := ⟨hand.entryLt, hand.span, hand.clamped, hand.noTarget, hand.kind, s.sc.counter,
          s.sleepAdvance hand s.sc.counter, 0, .none, 0⟩ } } := by
  rcases h with h | h <;> simp [State.leaveSleep, h, hh]

/-- Leaving a sleep moves LT and the residue and no more of TB. -/
theorem leaveSleep_tb (s : State) :
    s.leaveSleep.tb = { s.tb with lt := s.leaveSleep.tb.lt, residue := s.leaveSleep.tb.residue } := by
  unfold State.leaveSleep
  split <;> rfl

theorem chipReset_resetN (s : State) : s.chipReset.resetN = s.resetN := by
  unfold State.chipReset
  dsimp only
  split <;> rfl

/-- The chip reset with the time, residue and sleep record that leaving a sleep gives (R175, R189). -/
theorem chipReset_resets (s : State) :
    s.chipResetTo s.chipReset s.leaveSleep.tb.lt s.leaveSleep.tb.residue s.leaveSleep.sc.last := by
  have tb := leaveSleep_tb s
  have ratio : s.leaveSleep.tb.ratio = s.tb.ratio := by rw [tb]
  have uncalibrated : s.leaveSleep.tb.uncalibrated = s.tb.uncalibrated := by rw [tb]
  have run : s.leaveSleep.tb.run = s.tb.run := by rw [tb]
  have lastCal : s.leaveSleep.tb.lastCal = s.tb.lastCal := by rw [tb]
  unfold State.chipResetTo State.chipReset State.abortCalibration
  cases h : s.tb.run <;>
    refine ⟨rfl, ratio, uncalibrated, rfl, rfl, by rintro (_ | _) <;> exact ⟨rfl, rfl⟩, by simp [run, h, lastCal],
      rfl, rfl, rfl, rfl, rfl, rfl, rfl, by rintro (_ | _) <;> rfl, rfl, rfl, rfl⟩

/-- R189: the chip reset leaves POLICY's slot EMPTY. -/
theorem chipReset_policy_slot (s : State) : (s.chipReset.port .policy).slot = .empty := by
  obtain ⟨-, -, -, -, -, -, -, -, -, -, -, -, -, -, -, policy, -⟩ := chipReset_resets s
  rw [policy]
  rfl

theorem exec_resetChip (p : Port) (s : State) :
    exec (.resetChip p) s = s.command p (.resetChip p) (fun t => accept t.chipReset []) := rfl

/-- RESET CHIP: POLICY's slot is EMPTY, so nothing is answered (R189). -/
theorem execResetChip_executes (s : State) (n : Nat) (h : s.executes .policy n (.resetChip .policy)) :
    exec (.resetChip .policy) s = .next s.chipReset := by
  have noAnswer : s.chipReset.complete .policy .ok [] = s.chipReset :=
    complete_other s.chipReset .policy .ok [] (by simp [chipReset_policy_slot])
  rw [exec_resetChip, command_ready s .policy _ _ h.1]
  simp [accept, noAnswer]

theorem execChipReset_falls (s : State) (h : s.resetN = true) :
    exec .chipReset s = .next { s.chipReset with resetN := false } := by
  simp [exec, execChipReset, h]

/-- Settles O9: the chip reset's fields once, then what leaving a sleep contributes in each sleep state. -/
theorem chipResetKeepsTimeAndRatio : Obligations.ChipResetKeepsTimeAndRatio := by
  refine ⟨fun s hr hs => ?_, fun s hand hr hs hh => ?_, fun s n h => ?_, fun s => rfl⟩
  · have resets := chipReset_resets s
    rw [leaveSleep_counting s hs] at resets
    exact ⟨_, execChipReset_falls s hr, rfl, resets⟩
  · have resets := chipReset_resets s
    rw [leaveSleep_sleeping s hand hs hh] at resets
    exact ⟨_, _, execChipReset_falls s hr, rfl, resets, rfl, rfl, rfl, rfl⟩
  · have resets := chipReset_resets s
    rw [leaveSleep_counting s (.inl (executes_awake h))] at resets
    exact ⟨_, execResetChip_executes s n h, chipReset_resetN s, resets⟩

end Sys2Proof.Machine
end

section
namespace Sys2Proof.Machine

/-! ### Reads of the part (R17, R66, R84, R167) -/

theorem bytesOfNat_zero (w : Nat) : bytesOfNat w 0 = List.replicate w 0 := by
  induction w with
  | zero => rfl
  | succ w ih => simp [bytesOfNat, ih, List.replicate_succ]

/-- A command that answers without an effect changes its port's slot alone (R180). -/
theorem command_answers {s : State} {p : Port} {n : Nat} {i : Instr} {body : State → Answer} {st : Status}
    {rs : List Byte} (h : s.executes p n i) (hb : body s = (s, st, rs)) :
    s.command p i body = .next (s.setPort p ((s.port p).answered n st rs)) :=
  command_executes h hb h.2

theorem exec_readTime (p : Port) (s : State) :
    exec (.readTime p) s = s.command p (.readTime p) (fun t => accept t (t.timeResult (t.arrival p))) := rfl

theorem exec_readPolicy (p : Port) (s : State) :
    exec (.readPolicy p) s = s.command p (.readPolicy p) (fun t =>
      accept t (t.policyResult ++ [0, 1, 2, 3].flatMap (fun c => bytesOfNat 1 (t.token c).code))) := rfl

theorem exec_readTimeline (p : Port) (k : Nat) (s : State) :
    exec (.readTimeline p k) s = s.command p (.readTimeline p k) (fun t => t.readTimeline k) := rfl

theorem exec_readSleep (p : Port) (s : State) :
    exec (.readSleep p) s = s.command p (.readSleep p) (fun t => accept t t.sleepResult) := rfl

theorem arrival_of_buffer {s : State} {p : Port} {f : HeldFrame} (h : (s.port p).buffer = some f) :
    s.arrival p = f.arrival := by
  simp [State.arrival, h]

/-- R61: the end of an interval as READ TIMELINE returns it. -/
theorem endLt_eq (x : Occurrence) :
    x.endLt = if x.state = .active then x.cutAt.getD (plus x.placed x.remaining) else plus x.placed x.remaining := by
  cases hs : x.state <;> cases hc : x.cutAt <;> simp [Occurrence.endLt, hs, hc]

theorem timelineCode_active (x : OccState) : x.timelineCode.testBit 0 = (x == .active) := by cases x <;> decide

theorem timelineCode_suspended (x : OccState) : x.timelineCode.testBit 1 = (x == .suspended) := by cases x <;> decide

/-- One window of READ TIMELINE, byte by byte (R84). -/
theorem windowBytes_eq (s : State) (w : Nat × Record) :
    s.windowBytes w
      = bytesOfNat 1 w.1
        ++ [flagBits [w.2.owner == .b, w.2.occ.state == .active, w.2.occ.state == .suspended, w.2.kind.isTx,
              w.2.occ.cutAt.isSome]]
        ++ bytesOfNat 1 w.2.occ.profile
        ++ bytesOfNat 1 (if w.2.occ.level < s.arb.t1 then 0 else if w.2.occ.level < s.arb.t2 then 1
            else if w.2.occ.level < s.arb.t3 then 2 else 3)
        ++ bytesOfNat 6 w.2.occ.placed.toNat
        ++ bytesOfNat 6 (if w.2.occ.state = .active then w.2.occ.cutAt.getD (plus w.2.occ.placed w.2.occ.remaining)
            else plus w.2.occ.placed w.2.occ.remaining).toNat := by
  simp only [State.windowBytes, timelineCode_active, timelineCode_suspended, State.classOf, ltBytes, endLt_eq]

/-- R155: a vote's byte is set exactly for ALLOW. -/
theorem voteBytes_eq (x : PortState) :
    x.voteBytes = [if x.enabled then 1 else 0] ++ [if x.vote == some .allow then 1 else 0] := by
  rcases h : x.vote with _ | _ | _ <;> simp [PortState.voteBytes, flagByte, voteCode, bytesOfNat, h]

/-! ### Reads of the part answer what stands -/

section
variable {s : State} {p : Port} {n : Nat}

theorem execReadTime_executes {f : HeldFrame} (h : s.executes p n (.readTime p)) (hf : (s.port p).buffer = some f) :
    exec (.readTime p) s = .next (s.setPort p ((s.port p).answered n .ok (s.timeResult f.arrival))) := by
  rw [exec_readTime]
  exact command_answers h (by rw [arrival_of_buffer hf]; rfl)

theorem execReadPolicy_executes (h : s.executes p n (.readPolicy p)) :
    exec (.readPolicy p) s = .next (s.setPort p ((s.port p).answered n .ok
      (s.policyResult ++ [0, 1, 2, 3].flatMap (fun c => bytesOfNat 1 (s.token c).code)))) := by
  rw [exec_readPolicy]
  exact command_answers h rfl

/-- R84: a position above 63 is refused. -/
theorem execReadTimeline_beyond {k : Nat} (h : s.executes p n (.readTimeline p k)) (hk : 63 < k) :
    exec (.readTimeline p k) s = .next (s.setPort p ((s.port p).answered n .badParam [])) := by
  rw [exec_readTimeline]
  exact command_refused h (by simp [State.readTimeline, hk])

/-- R84: five windows at most, from the position on. -/
theorem execReadTimeline_within {k : Nat} (h : s.executes p n (.readTimeline p k)) (hk : k ≤ 63) :
    exec (.readTimeline p k) s = .next (s.setPort p ((s.port p).answered n .ok
      (bytesOfNat 1 s.timeline.length ++ bytesOfNat 1 k
        ++ ((s.timeline.drop k).take 5).flatMap s.windowBytes))) := by
  rw [exec_readTimeline]
  exact command_answers h (by simp [State.readTimeline, Nat.not_lt.mpr hk, accept])

theorem execReadSleep_executes (h : s.executes p n (.readSleep p)) :
    exec (.readSleep p) s = .next (s.setPort p ((s.port p).answered n .ok s.sleepResult)) := by
  rw [exec_readSleep]
  exact command_answers h rfl

end

/-! ### Reads of a session and a handover (R117, R136) -/

/-- The bytes of an owner's handover record and revert window (R136). -/
def State.handoverResult (s : State) (o : Owner) : List Byte :=
  handoverBytes (s.handover? o) ++ revertBytes (s.revert? o)

theorem exec_readHandover (p : Port) (which : Option Nat) (s : State) :
    exec (.readHandover p which) s = s.command p (.readHandover p which) (fun t =>
      match readOwner p which with
      | some o => accept t (t.handoverResult o)
      | none => refuse t .badParam) := rfl

theorem exec_readCall (p : Port) (which : Option Nat) (s : State) :
    exec (.readCall p which) s = s.command p (.readCall p which) (fun t =>
      match readOwner p which with
      | some o => t.readCall o
      | none => refuse t .badParam) := rfl

theorem readCall_absent {s : State} {o : Owner} (h : s.call? o = none) : s.readCall o = accept s (bytesOfNat 36 0) := by
  simp [State.readCall, h]

/-- R117: the period number is that of the receive record's current occurrence. -/
theorem readCall_timed {s : State} {o : Owner} {c : Call} {h : Nat} {r : Record} (hc : s.call? o = some c)
    (hh : c.rxHandle = some h) (hr : s.record? h = some r) : s.readCall o = accept s (c.result r.occ.k) := by
  simp [State.readCall, hc, hh, hr]

/-- While the receive record is gone a free value stands for the period number (notes/assumptions/11). -/
theorem readCall_untimed {s : State} {o : Owner} {c : Call} (hc : s.call? o = some c)
    (hr : ∀ h, c.rxHandle = some h → s.record? h = none) :
    s.readCall o = accept { s with free := s.free + 1 } (c.result (Config.freeWord s.free).toNat) := by
  have gone : c.rxHandle.bind s.record? = none := Option.bind_eq_none_iff.mpr hr
  simp [State.readCall, hc, gone, State.takeFree]

section
variable {s : State} {p : Port} {n : Nat} {which : Option Nat} {o : Owner}

theorem execReadHandover_owner (h : s.executes p n (.readHandover p which)) (ho : readOwner p which = some o) :
    exec (.readHandover p which) s = .next (s.setPort p ((s.port p).answered n .ok (s.handoverResult o))) := by
  rw [exec_readHandover]
  exact command_answers h (by rw [ho]; rfl)

theorem execReadHandover_noOwner (h : s.executes p n (.readHandover p which)) (ho : readOwner p which = none) :
    exec (.readHandover p which) s = .next (s.setPort p ((s.port p).answered n .badParam [])) := by
  rw [exec_readHandover]
  exact command_refused h (by rw [ho])

theorem execReadCall_noOwner (h : s.executes p n (.readCall p which)) (ho : readOwner p which = none) :
    exec (.readCall p which) s = .next (s.setPort p ((s.port p).answered n .badParam [])) := by
  rw [exec_readCall]
  exact command_refused h (by rw [ho])

/-- READ CALL completes on its port with what `State.readCall` answers, which leaves the ports alone. -/
theorem execReadCall_owner {t : State} {rs : List Byte} (h : s.executes p n (.readCall p which))
    (ho : readOwner p which = some o) (hb : s.readCall o = accept t rs) (ht : t.port p = s.port p) :
    exec (.readCall p which) s = .next (t.setPort p ((s.port p).answered n .ok rs)) := by
  rw [exec_readCall, ← ht]
  exact command_executes h (by rw [ho]; exact hb) (ht ▸ h.2)

end

end Sys2Proof.Machine
end

section
namespace Sys2Proof.Machine

/-! ### What the reads answer, byte by byte (notes/assumptions/8, 43, 45) -/

/-- The same bytes in another spelling. -/
theorem answers_of_bytes {s : State} {p : Port} {n : Nat} {i : Instr} {st : Status} {rs rs' : List Byte}
    (h : exec i s = .next (s.setPort p ((s.port p).answered n st rs))) (e : rs = rs') :
    exec i s = .next (s.setPort p ((s.port p).answered n st rs')) := e ▸ h

theorem policyTokens_eq (s : State) :
    s.policyResult ++ [0, 1, 2, 3].flatMap (fun c => bytesOfNat 1 (s.token c).code)
      = bytesOfNat 1 s.arb.t1 ++ bytesOfNat 1 s.arb.t2 ++ bytesOfNat 1 s.arb.t3 ++ bytesOfNat 2 s.arb.guard
        ++ bytesOfNat 1 (s.token 0).code ++ bytesOfNat 1 (s.token 1).code ++ bytesOfNat 1 (s.token 2).code
        ++ bytesOfNat 1 (s.token 3).code := by
  simp [State.policyResult, List.append_assoc]

theorem handoverBytes_none : handoverBytes none = List.replicate 16 0 := bytesOfNat_zero 16

/-- R136: a pending record. -/
theorem handoverBytes_some (ho : Handover) :
    handoverBytes (some ho)
      = [1, if ho.kind = .revert then 1 else 0] ++ bytesOfNat 1 ho.source ++ bytesOfNat 1 ho.target
        ++ (bytesOfNat 2 ho.time.frame ++ bytesOfNat 1 ho.time.slot ++ bytesOfNat 2 ho.time.offset)
        ++ bytesOfNat 6 ho.ts.toNat ++ [if ho.clamped then 1 else 0] := by
  have kind : bytesOfNat 1 1 ++ bytesOfNat 1 ho.kind.code = [1, if ho.kind = .revert then 1 else 0] := by
    cases ho.kind <;> rfl
  rw [handoverBytes, kind]
  rfl

theorem revertBytes_none : revertBytes none = List.replicate 8 0 := bytesOfNat_zero 8

/-- R136: an open revert window. -/
theorem revertBytes_some (v : RevertWindow) :
    revertBytes (some v) = [1] ++ bytesOfNat 1 v.retiring ++ bytesOfNat 6 v.closeLt.toNat := rfl

theorem callState_code (x : CallState) : x.code = if x = .running then 1 else 2 := by cases x <;> rfl

/-- R117: a session in the order of its fields. -/
theorem callResult_eq (c : Call) (period : Nat) :
    c.result period
      = bytesOfNat 1 (if c.state = .running then 1 else 2) ++ bytesOfTime c.params.rxStart
        ++ bytesOfNat 3 c.params.rxLength ++ bytesOfNat 3 c.params.txDelay ++ bytesOfNat 3 c.params.txLength
        ++ bytesOfNat 1 c.params.period ++ bytesOfNat 1 c.params.level ++ bytesOfNat 1 c.params.allowance
        ++ bytesOfNat 1 c.params.threshold ++ bytesOfNat 1 c.params.rxProfile ++ bytesOfNat 1 c.params.txProfile
        ++ presentByte c.rxHandle ++ presentByte c.txHandle ++ bytesOfNat 2 period ++ flagByte c.reference.isSome
        ++ bytesOfNat 2 (c.reference.getD 0) ++ bytesOfNat 1 c.yields.length ++ c.yields.flatMap (bytesOfNat 2)
        ++ bytesOfNat 1 c.degradation ++ bytesOfNat 2 c.granted ++ bytesOfNat 2 c.refused := by
  simp only [Call.result, callParamBytes, callState_code, List.append_assoc]

/-- R167: the sleep parameters, the ports' votes and the two last records, in the order of their fields. -/
theorem sleepResult_eq (s : State) :
    s.sleepResult
      = bytesOfNat 3 s.sc.params.lead ++ bytesOfNat 1 s.sc.params.warmUp ++ bytesOfNat 2 s.sc.params.spanMin
        ++ bytesOfNat 3 s.sc.params.spanMax ++ bytesOfNat 2 s.sc.params.uncertainty
        ++ bytesOfNat 1 s.sc.params.exponent ++ bytesOfNat 1 s.sc.params.shift ++ bytesOfNat 1 s.sc.params.autoInterval
        ++ (s.port .subA).voteBytes ++ (s.port .subB).voteBytes ++ (s.port .policy).voteBytes
        ++ flagByte s.sc.spanShort ++ bytesOfNat 1 s.sc.wakes
        ++ ltBytes s.sc.last.entryLt ++ bytesOfNat 3 s.sc.last.span ++ flagByte s.sc.last.clamped
        ++ flagByte s.sc.last.noTarget ++ bytesOfNat 1 s.sc.last.kind.code ++ bytesOfNat 3 s.sc.last.wakeCount
        ++ bytesOfNat 5 s.sc.last.advance ++ bytesOfNat 2 s.sc.last.widening ++ bytesOfNat 1 s.sc.last.reason.code
        ++ bytesOfNat 1 s.sc.last.port
        ++ bytesOfNat 1 s.tb.lastCal.outcome.code ++ bytesOfNat 1 s.tb.lastCal.exponent
        ++ bytesOfNat 4 s.tb.lastCal.count ++ bytesOfNat 4 s.tb.lastCal.measured ++ bytesOfInt 4 s.tb.lastCal.ppm
        ++ ltBytes s.tb.lastCal.lt ++ flagByte s.tb.lastCal.auto := by
  simp only [State.sleepResult, sleepParamBytes, SleepRecord.result, CalRecord.result, List.append_assoc]
  rfl

/-- Settles O29: each read is its row's answer, and the answer is spelled in bytes by the lemmas above. -/
theorem readsOfPartAndSessionsChangeNothing : Obligations.ReadsOfPartAndSessionsChangeNothing := by
  refine ⟨fun s p n => ⟨?_, ?_, ?_, ?_, ?_⟩, fun s p n which => ?_⟩
  · intro f h hf
    exact execReadTime_executes h hf
  · intro h
    exact answers_of_bytes (execReadPolicy_executes h) (policyTokens_eq s)
  · intro k h hk
    refine answers_of_bytes (execReadTimeline_within h hk) ?_
    rw [funext (windowBytes_eq s)]
  · intro k h hk
    exact execReadTimeline_beyond h hk
  · intro h
    refine answers_of_bytes (execReadSleep_executes h) ?_
    rw [sleepResult_eq, voteBytes_eq, voteBytes_eq, voteBytes_eq]
    rfl
  · intro answers owner flag time present session
    have session_eq : ∀ c k, c.result k = session c k := callResult_eq
    have owner_eq : readOwner p which = owner := by rcases which with _ | _ | _ | w <;> rfl
    refine ⟨fun h => ⟨fun ho => execReadHandover_noOwner h (owner_eq.trans ho), fun o ho => ?_⟩,
      fun h => ⟨fun ho => execReadCall_noOwner h (owner_eq.trans ho), fun o ho => ?_⟩⟩
    · refine answers_of_bytes (execReadHandover_owner h (owner_eq.trans ho)) (congr (congrArg HAppend.hAppend ?_) ?_)
      · cases s.handover? o with
        | none => exact handoverBytes_none
        | some record => exact handoverBytes_some record
      · cases s.revert? o with
        | none => exact revertBytes_none
        | some window => exact revertBytes_some window
    · have completes := fun t rs => execReadCall_owner (t := t) (rs := rs) h (owner_eq.trans ho)
      refine ⟨fun absent => answers_of_bytes (completes s _ (readCall_absent absent) rfl) (bytesOfNat_zero 36),
        fun c hc => ⟨fun k r hk hr => ?_, fun gone => ?_⟩⟩
      · exact answers_of_bytes (completes s _ (readCall_timed hc hk hr) rfl) (session_eq c _)
      · refine ⟨_, (Config.freeWord s.free).toNat, completes _ _ (readCall_untimed hc gone) rfl, rfl, ?_,
          sameExcept_setPort p _ (sameExcept_free s _)⟩
        rw [← session_eq, port_setPort, if_pos rfl]

end Sys2Proof.Machine
end

/-! ## The policy, the timeline and its arbitration, and the soundness of reset -/

section
namespace Sys2Proof.Machine

/-! ### The reset state is sound (R65, R93, R154, R166, R169, R183, R186) -/

/-- R60: no record exists at reset. -/
theorem record?_reset (h : Nat) : State.reset.record? h = none := by
  simp only [State.record?, State.reset, Vector.getElem?_replicate]
  split <;> rfl

/-- R93: with no record there is no ACTIVE window, and both lines are low. -/
theorem reset_airSound : State.reset.airSound := by
  have silent : ∀ tx, ¬State.reset.airs tx := fun tx ⟨h, r, hr, _⟩ => by simp [record?_reset] at hr
  have low : State.reset.wc.rxEn = false ∧ State.reset.wc.txEn = false := ⟨rfl, rfl⟩
  exact ⟨fun h k r q hr => by simp [record?_reset] at hr, by simp [low, silent], by simp [low, silent], by simp [low]⟩

theorem reset_portsSound : State.reset.portsSound := by
  refine ⟨rfl, fun p => ?_⟩
  cases p with
  | subA => exact fun _ => ⟨rfl, rfl, rfl, rfl, rfl⟩
  | subB => exact fun _ => ⟨rfl, rfl, rfl, rfl, rfl⟩
  | policy => exact fun disabled => nomatch disabled

/-- Settles O60: the numbers are compared one by one, the records and the ports by the two lemmas above. -/
theorem resetIsSound : Obligations.ResetIsSound := by
  have ratio : State.reset.ratioSound := by unfold State.ratioSound; decide
  have policy : State.reset.policySound := by unfold State.policySound; decide
  have sleep : State.reset.sleepSound := by unfold State.sleepSound; decide
  have oscillator : State.reset.oscillatorSound := by unfold State.oscillatorSound; decide
  have queues : State.reset.queuesSound := fun p => by cases p <;> decide
  exact ⟨ratio, policy, sleep, oscillator, queues, reset_airSound, reset_portsSound⟩

end Sys2Proof.Machine
end

section
namespace Sys2Proof.Machine

/-! ### SET POLICY (R65) -/

/-- R179: command 15 is not listed on the SUB ports. -/
theorem parseFrame_setPolicy_sub (o : Owner) (ps : List Byte) : parseFrame o.port 15 ps = .refused .wrongPort := by
  have unlisted : listedOn 15 o.port = false := by cases o <;> rfl
  simp [parseFrame, unlisted]

/-- SET POLICY's effect on ARB. -/
def State.withPolicy (s : State) (t1 t2 t3 guard : Nat) : State :=
  { s with arb := { s.arb with t1 := t1, t2 := t2, t3 := t3, guard := guard } }

theorem setPolicy_ordered (s : State) {t1 t2 t3 g : Nat} (h12 : t1 ≤ t2) (h23 : t2 ≤ t3) (h3 : t3 ≤ 16)
    (hg : g ≤ 12000) :
    s.setPolicy t1 t2 t3 g
      = (s.withPolicy t1 t2 t3 g, .ok, bytesOfNat 1 t1 ++ bytesOfNat 1 t2 ++ bytesOfNat 1 t3 ++ bytesOfNat 2 g) := by
  have inOrder : (t2 < t1 || t3 < t2 || 16 < t3 || 12000 < g) = false := by simp; omega
  simp only [State.setPolicy, inOrder]
  rfl

theorem setPolicy_disordered (s : State) {t1 t2 t3 g : Nat} (h : t2 < t1 ∨ t3 < t2 ∨ 16 < t3 ∨ 12000 < g) :
    s.setPolicy t1 t2 t3 g = refuse s .badPolicy := by
  have refused : (t2 < t1 || t3 < t2 || 16 < t3 || 12000 < g) = true := by simp; omega
  simp only [State.setPolicy, refused, if_true]

theorem exec_setPolicy (p : Port) (t1 t2 t3 g : Nat) (s : State) :
    exec (.setPolicy p t1 t2 t3 g) s
      = s.planCommand p (.setPolicy p t1 t2 t3 g) (fun t => some (t.setPolicy t1 t2 t3 g)) := rfl

/-- Settling without an activation adds replanning alone to the parts a command changed, where those are neither WC nor SC. -/
theorem settle_replans (s u : State) (parts : List Block) (quiet : s.active? = none ∨ u.active? ≠ none)
    (same : s.sameExcept u parts) (wc : u.wc = s.wc) (sc : u.sc = s.sc) :
    s.replannedExcept (State.settle s u) parts := by
  obtain ⟨⟨tb', ct', rt', arb', -, su', hu', -, ports', resetN', free', pending'⟩, plan, load, sleep⟩ :=
    settle_quiet s u quiet
  obtain ⟨tb, ct, rt, arb, -, su, hu, -, ports, resetN, free, pending⟩ := same
  simp only [State.sleepSettled, wc, sc] at plan load sleep
  refine ⟨⟨fun h => ?_, fun h => ?_, fun h => ?_, fun h => ?_, by simp, fun h => ?_, fun h => ?_, by simp,
    fun p h => ?_, fun h => ?_, fun h => ?_, fun h => ?_⟩, plan, load, sleep⟩
  all_goals simp only [List.mem_cons, not_or] at h
  · exact (tb' (by simp)).trans (tb h.2.2)
  · exact (ct' (by simp)).trans (ct h.2.2)
  · exact (rt' (by simp)).trans (rt h.2.2)
  · exact (arb' (by simp)).trans (arb h.2.2)
  · exact (su' (by simp)).trans (su h.2.2)
  · exact (hu' (by simp)).trans (hu h.2.2)
  · exact (ports' p (by simp)).trans (ports p h.2.2)
  · exact (resetN' (by simp)).trans (resetN h.2.2)
  · exact (free' (by simp)).trans (free h.2.2)
  · exact (pending' (by simp)).trans (pending h.2.2)

theorem withPolicy_sameExcept (s : State) (t1 t2 t3 g : Nat) : s.sameExcept (s.withPolicy t1 t2 t3 g) [.arb] :=
  ⟨fun _ => rfl, fun _ => rfl, fun _ => rfl, by simp, fun _ => rfl, fun _ => rfl, fun _ => rfl, fun _ => rfl,
    fun _ _ => rfl, fun _ => rfl, fun _ => rfl, fun _ => rfl⟩

/-- Settles O25: an ordered policy is stored and answered, and the timeline it leaves is only replanned. -/
theorem setPolicyStoresAnOrderedPolicy : Obligations.SetPolicyStoresAnOrderedPolicy := by
  refine ⟨parseFrame_setPolicy_sub, rfl, rfl, rfl, rfl, fun s n t1 t2 t3 g hx => ⟨fun h12 h23 h3 hg => ?_, fun h => ?_⟩⟩
  · let u := s.withPolicy t1 t2 t3 g
    let rs := bytesOfNat 1 t1 ++ bytesOfNat 1 t2 ++ bytesOfNat 1 t3 ++ bytesOfNat 2 g
    let v := u.setPort .policy ((u.port .policy).answered n .ok rs)
    have sameWindows : v.active? = s.active? := active?_congr s v rfl
    have quiet : s.active? = none ∨ v.active? ≠ none := by rw [sameWindows]; exact Classical.em _
    have settled := settle_quiet s v quiet
    obtain ⟨⟨-, -, -, arb, -, -, -, -, ports, -⟩, -⟩ := settled
    refine ⟨State.settle s v, ?_, arb (by simp), ?_, ?_⟩
    · rw [exec_setPolicy]
      exact planCommand_accepts hx (congrArg some (setPolicy_ordered s h12 h23 h3 hg)) hx.2
    · exact (ports .policy (by simp)).trans (by rw [port_setPort, if_pos rfl]; rfl)
    · exact settle_replans s v _ quiet (sameExcept_setPort .policy _ (withPolicy_sameExcept s t1 t2 t3 g)) rfl rfl
  · rw [exec_setPolicy]
    exact planCommand_refused hx (congrArg some (setPolicy_disordered s h)) (by decide)

end Sys2Proof.Machine
end

section
namespace Sys2Proof.Machine

/-! ### The beats relation (R64, R67) -/

section
variable (s : State) (token : Owner) (x : Arrival) (h : Nat) (y : Record)

/-- R67, step 1: the ACTIVE window loses only to class 0 of the other owner. -/
theorem beats_active (ha : y.occ.state = .active) :
    s.beats token x h y = (s.classOf x.level == 0 && !(x.owner == y.owner), .active) := by
  simp [State.beats, ha]

/-- R67, step 2: the lower class. -/
theorem beats_class (ha : y.occ.state ≠ .active) (hc : s.classOf x.level ≠ s.classOf y.occ.level) :
    s.beats token x h y = (decide (s.classOf x.level < s.classOf y.occ.level), .cls) := by
  simp [State.beats, ha, hc]

/-- R67, step 3: at equal classes of two owners, the token's holder. -/
theorem beats_token (ha : y.occ.state ≠ .active) (hc : s.classOf x.level = s.classOf y.occ.level)
    (ho : x.owner ≠ y.owner) : s.beats token x h y = (token == x.owner, .token) := by
  simp [State.beats, ha, hc, ho]

/-- R67, step 4: within an owner, the lower level. -/
theorem beats_level (ha : y.occ.state ≠ .active) (hc : s.classOf x.level = s.classOf y.occ.level)
    (ho : x.owner = y.owner) (hl : x.level ≠ y.occ.level) :
    s.beats token x h y = (decide (x.level < y.occ.level), .level) := by
  simp [State.beats, ha, hc, ho, hl]

/-- R67, step 5: at equal levels, the lower handle. -/
theorem beats_handle (ha : y.occ.state ≠ .active) (ho : x.owner = y.owner) (hl : x.level = y.occ.level) :
    s.beats token x h y = (decide (x.handle < h), .level) := by
  simp [State.beats, ha, ho, hl]

end

/-- Of two owners that differ, a token is held by exactly one. -/
theorem Owner.beq_of_ne (token : Owner) {o u : Owner} (h : o ≠ u) : (token == o) = !(token == u) := by
  cases token <;> cases o <;> cases u <;> simp_all

/-- A window as the arriving one. -/
def arrivalOf (w : Nat × Record) : Arrival := ⟨w.1, w.2.owner, w.2.kind, w.2.occ.level⟩

/-- Of two windows with different handles, neither ACTIVE, exactly one beats the other: each step of R67 decides both ways
at once. -/
theorem beats_antisymm (s : State) (token : Owner) (x y : Nat × Record) (hn : x.1 ≠ y.1)
    (hx : x.2.occ.state ≠ .active) (hy : y.2.occ.state ≠ .active) :
    (s.beats token (arrivalOf x) y.1 y.2).1 = !(s.beats token (arrivalOf y) x.1 x.2).1 := by
  by_cases hc : s.classOf x.2.occ.level = s.classOf y.2.occ.level
  · by_cases ho : x.2.owner = y.2.owner
    · by_cases hl : x.2.occ.level = y.2.occ.level
      · rw [beats_handle s token (arrivalOf x) y.1 y.2 hy ho hl,
          beats_handle s token (arrivalOf y) x.1 x.2 hx ho.symm hl.symm]
        simp only [arrivalOf]
        grind
      · rw [beats_level s token (arrivalOf x) y.1 y.2 hy hc ho hl,
          beats_level s token (arrivalOf y) x.1 x.2 hx hc.symm ho.symm (Ne.symm hl)]
        simp only [arrivalOf]
        grind
    · rw [beats_token s token (arrivalOf x) y.1 y.2 hy hc ho,
        beats_token s token (arrivalOf y) x.1 x.2 hx hc.symm (Ne.symm ho)]
      exact Owner.beq_of_ne token ho
  · rw [beats_class s token (arrivalOf x) y.1 y.2 hy hc, beats_class s token (arrivalOf y) x.1 x.2 hx (Ne.symm hc)]
    simp only [arrivalOf]
    grind

/-- Settles O26: one lemma per step of R67. -/
theorem beatsDecidesEveryContest : Obligations.BeatsDecidesEveryContest := by
  intro s token x y arrival beats cls
  refine ⟨fun ha => ?_, fun ha => ⟨fun hc => ?_, fun hc ho => ?_, fun hc ho hl => ?_, fun ho hl => ?_⟩,
    fun hn hx hy => beats_antisymm s token x y hn hx hy⟩
  · have step := beats_active s token (arrival x) y.1 y.2 ha
    simp only [beats, step, Bool.and_eq_true, beq_iff_eq, Bool.not_eq_true', beq_eq_false_iff_ne]
    rfl
  · have step := beats_class s token (arrival x) y.1 y.2 ha hc
    simp only [beats, step, decide_eq_true_eq]
    rfl
  · have step := beats_token s token (arrival x) y.1 y.2 ha hc ho
    simp only [beats, step, beq_iff_eq]
    rfl
  · have step := beats_level s token (arrival x) y.1 y.2 ha hc ho hl
    simp only [beats, step, decide_eq_true_eq]
    rfl
  · have step := beats_handle s token (arrival x) y.1 y.2 ha ho hl
    simp only [beats, step, decide_eq_true_eq]
    rfl

end Sys2Proof.Machine
end

section
namespace Sys2Proof.Machine

/-! ### Instants a known distance from a base -/

section
variable (a b : LocalTime) (m n : Nat)

@[simp] theorem plus_zero : plus a 0 = a := by simp [plus]

theorem plus_plus : plus (plus a m) n = plus a (m + n) := by
  simp [plus, BitVec.add_assoc, BitVec.ofNat_add]

@[simp] theorem plus_ticksTo : plus a (ticksTo a b) = b := by
  unfold plus ticksTo
  bv_omega

theorem ticksTo_plus : ticksTo a (plus b n) = (ticksTo a b + n) % 281474976710656 := by
  simp [ticksTo, plus, BitVec.toNat_sub, BitVec.toNat_add]
  omega

theorem ticksTo_lt : ticksTo a b < 281474976710656 := (b - a).isLt

@[simp] theorem ticksTo_self : ticksTo a a = 0 := by simp [ticksTo]

theorem ticksTo_less_self (h : n < 281474976710656) : ticksTo (less a n) a = n := by
  simp [ticksTo, less]
  omega

/-- "Before" tells two instants apart that lie in the same half of the circle (section 3.1). -/
theorem before_iff (c : LocalTime) (ha : ticksTo c a < 140737488355328) (hb : ticksTo c b < 140737488355328) :
    before a b = true ↔ ticksTo c a < ticksTo c b := by
  simp only [before, Bool.and_eq_true, decide_eq_true_eq]
  simp only [ticksTo, BitVec.toNat_sub] at ha hb ⊢
  omega

theorem before_eq_false (c : LocalTime) (ha : ticksTo c a < 140737488355328) (hb : ticksTo c b < 140737488355328) :
    before a b = false ↔ ticksTo c b ≤ ticksTo c a := by
  rw [← Bool.not_eq_true, before_iff a b c ha hb, Nat.not_lt]

theorem laterOf_ticksTo (c : LocalTime) (ha : ticksTo c a < 140737488355328) (hb : ticksTo c b < 140737488355328) :
    ticksTo c (laterOf a b) = max (ticksTo c a) (ticksTo c b) := by
  unfold laterOf
  cases order : before a b with
  | true =>
    have nearer := (before_iff a b c ha hb).mp order
    rw [if_pos rfl]
    omega
  | false =>
    have farther := (before_eq_false a b c ha hb).mp order
    rw [if_neg Bool.false_ne_true]
    omega

end

/-- The latest of a list of instants, none half the circle from a common base: one of them, and none is farther. -/
theorem foldl_laterOf {α : Type} (c : LocalTime) (f : α → LocalTime) (l : List α) (a : LocalTime)
    (ha : ticksTo c a < 140737488355328) (hl : ∀ z ∈ l, ticksTo c (f z) < 140737488355328) :
    let e := l.foldl (fun e z => laterOf e (f z)) a
    (e = a ∨ ∃ z ∈ l, e = f z) ∧ ticksTo c a ≤ ticksTo c e ∧ ∀ z ∈ l, ticksTo c (f z) ≤ ticksTo c e := by
  induction l generalizing a with
  | nil => simp
  | cons z zs ih =>
    have hz := hl z (by simp)
    have dist := laterOf_ticksTo a (f z) c ha hz
    obtain ⟨which, far, rest⟩ := ih (laterOf a (f z)) (by omega) (fun y hy => hl y (by simp [hy]))
    simp only [List.foldl_cons]
    refine ⟨?_, by omega, fun y hy => ?_⟩
    · rcases which with which | ⟨y, hy, which⟩
      · rw [which]
        unfold laterOf
        split
        · exact .inr ⟨z, by simp, rfl⟩
        · exact .inl rfl
      · exact .inr ⟨y, by simp [hy], which⟩
    · rcases List.mem_cons.mp hy with rfl | hy
      · omega
      · exact rest y hy

end Sys2Proof.Machine
end

section
namespace Sys2Proof.Machine

/-! ### Conflicts of a start (R63) -/

section
variable (s : State) (o : Owner) (profile len : Nat)

/-- The windows of the timeline that [a, a + len) conflicts with (R63). -/
def State.conflictSet (a : LocalTime) : List (Nat × Record) :=
  s.timeline.filter (fun y => s.conflicts o profile a len y.2)

theorem mem_conflictSet (a : LocalTime) (h : Nat) (y : Record) :
    (h, y) ∈ s.conflictSet o profile len a
      ↔ (s.record? h = some y ∧ y.occ.state.inTimeline = true) ∧ s.conflicts o profile a len y = true := by
  rw [State.conflictSet, List.mem_filter, mem_timeline]

theorem conflictSet_eq_nil (a : LocalTime) : s.conflictSet o profile len a = [] ↔ s.clearAt o profile a len := by
  simp only [List.eq_nil_iff_forall_not_mem, Prod.forall, mem_conflictSet, State.clearAt]
  grind

/-- Some window of the timeline conflicts with [a, a + len). -/
def State.takenAt (a : LocalTime) : Prop :=
  ∃ h y, s.record? h = some y ∧ y.occ.state.inTimeline = true ∧ s.conflicts o profile a len y = true

theorem takenAt_of_mem (a b : LocalTime) (z : Nat × Record) (hz : z ∈ s.conflictSet o profile len a)
    (hb : s.conflicts o profile b len z.2 = true) : s.takenAt o profile len b := by
  obtain ⟨h, y⟩ := z
  obtain ⟨⟨hr, hi⟩, -⟩ := (mem_conflictSet s o profile len a h y).mp hz
  exact ⟨h, y, hr, hi, hb⟩

variable (y : Record)

theorem guardTo_eq :
    s.guardTo o profile y = if o = y.owner ∧ profile = y.occ.profile then 0 else s.arb.guard := by
  simp [State.guardTo]

theorem guardTo_le : s.guardTo o profile y ≤ s.arb.guard := by
  rw [guardTo_eq]
  split <;> omega

/-- The starts that a bounded window takes lie one behind another: a start conflicts exactly where its guarded end, counted
from the window's start, is at least one tick and has not passed both lengths with both guards. -/
theorem conflicts_iff (a : LocalTime) (hy : ticksTo y.occ.placed y.occ.endLt + s.arb.guard < 17592186044416)
    (hl : len + s.arb.guard < 17592186044416) :
    let g := s.guardTo o profile y
    let u := ticksTo y.occ.placed (plus a (len + g))
    s.conflicts o profile a len y = true ↔ 1 ≤ u ∧ u < ticksTo y.occ.placed y.occ.endLt + g + (len + g) := by
  intro g u
  have hg : g ≤ s.arb.guard := guardTo_le s o profile y
  have hu : u = (ticksTo y.occ.placed a + (len + g)) % 281474976710656 := ticksTo_plus _ _ _
  have ends : ticksTo a (plus y.occ.endLt g)
      = (281474976710656 - ticksTo y.occ.placed a + ticksTo y.occ.placed y.occ.endLt + g) % 281474976710656 := by
    rw [ticksTo_plus]
    simp only [ticksTo, BitVec.toNat_sub]
    omega
  have hp := ticksTo_lt y.occ.placed a
  simp only [State.conflicts, before, Bool.and_eq_true, decide_eq_true_eq]
  rw [show s.guardTo o profile y = g from rfl, show ticksTo y.occ.placed (plus a (len + g)) = u from rfl, ends]
  omega

/-- From a start that conflicts with a bounded window, every start up to the guarded end conflicts with it, and none from
there on. -/
theorem conflicts_until (a : LocalTime) (hy : ticksTo y.occ.placed y.occ.endLt + s.arb.guard < 17592186044416)
    (hl : len + s.arb.guard < 17592186044416) (hc : s.conflicts o profile a len y = true) :
    let e := ticksTo a (s.guardedEnd o profile y)
    1 ≤ e ∧ e < 35184372088832 ∧ (∀ i, i < e → s.conflicts o profile (plus a i) len y = true)
      ∧ ∀ i, e ≤ i → i < 140737488355328 → s.conflicts o profile (plus a i) len y = false := by
  intro e
  have hg := guardTo_le s o profile y
  have he : e = (ticksTo a y.occ.endLt + s.guardTo o profile y) % 281474976710656 := ticksTo_plus _ _ _
  have ends : ticksTo a y.occ.endLt
      = (281474976710656 - ticksTo y.occ.placed a + ticksTo y.occ.placed y.occ.endLt) % 281474976710656 := by
    simp only [ticksTo, BitVec.toNat_sub]
    omega
  have hp := ticksTo_lt y.occ.placed a
  have here := (conflicts_iff s o profile len y a hy hl).mp hc
  rw [ticksTo_plus] at here
  refine ⟨by omega, by omega, fun i hi => ?_, fun i hi hi' => ?_⟩
  · refine (conflicts_iff s o profile len y _ hy hl).mpr ?_
    rw [plus_plus, ticksTo_plus]
    omega
  · refine Bool.eq_false_iff.mpr fun still => ?_
    have later := (conflicts_iff s o profile len y _ hy hl).mp still
    rw [plus_plus, ticksTo_plus] at later
    omega

end

/-! ### Searches (R74) -/

section
variable (s : State) (o : Owner) (profile len : Nat) (latest : LocalTime) (left : Nat) (a : LocalTime)

theorem searchFrom_late (h : before latest a = true) :
    s.searchFrom o profile len latest left a = none := by
  cases left with
  | zero => rfl
  | succ left => simp [State.searchFrom, h]

theorem searchFrom_clear (h : before latest a = false) (hc : s.clearAt o profile a len) :
    s.searchFrom o profile len latest (left + 1) a = some a := by
  have none_conflicts := (conflictSet_eq_nil s o profile len a).mpr hc
  rw [State.conflictSet] at none_conflicts
  simp [State.searchFrom, h, none_conflicts]

/-- Where the start conflicts, the walk goes on from the latest guarded end of its conflict set. -/
theorem searchFrom_conflict (h : before latest a = false) (z : Nat × Record) (zs : List (Nat × Record))
    (hz : s.conflictSet o profile len a = z :: zs) :
    s.searchFrom o profile len latest (left + 1) a
      = s.searchFrom o profile len latest left
          (zs.foldl (fun e z => laterOf e (s.guardedEnd o profile z.2)) (s.guardedEnd o profile z.2)) := by
  rw [State.conflictSet] at hz
  simp [State.searchFrom, h, hz]

/-- A start that is found is clear and not after the latest start. -/
theorem searchFrom_sound (b : LocalTime) (h : s.searchFrom o profile len latest left a = some b) :
    s.clearAt o profile b len ∧ before latest b = false := by
  induction left generalizing a with
  | zero => cases h
  | succ left ih =>
    cases late : before latest a with
    | true => rw [searchFrom_late s o profile len latest _ a late] at h; cases h
    | false =>
      cases hz : s.conflictSet o profile len a with
      | nil =>
        have clear := (conflictSet_eq_nil s o profile len a).mp hz
        rw [searchFrom_clear s o profile len latest left a late clear] at h
        cases h
        exact ⟨clear, late⟩
      | cons z zs =>
        rw [searchFrom_conflict s o profile len latest left a late z zs hz] at h
        exact ih _ h

/-- A step of the walk passes taken starts alone, and leaves every window of its conflict set behind. -/
theorem step_passes (hb : s.windowsBounded) (hl : len + s.arb.guard < 17592186044416) (z : Nat × Record)
    (zs : List (Nat × Record)) (hz : s.conflictSet o profile len a = z :: zs) :
    ∃ e, zs.foldl (fun e z => laterOf e (s.guardedEnd o profile z.2)) (s.guardedEnd o profile z.2) = plus a e
      ∧ e < 35184372088832 ∧ (∀ i, i < e → s.takenAt o profile len (plus a i))
      ∧ ∀ y ∈ s.conflictSet o profile len a, ∀ i, e ≤ i → i < 140737488355328 →
          s.conflicts o profile (plus a i) len y.2 = false := by
  have until' := fun y (hy : y ∈ s.conflictSet o profile len a) =>
    have hm := (mem_conflictSet s o profile len a y.1 y.2).mp hy
    conflicts_until s o profile len y.2 a (hb _ _ hm.1.1 hm.1.2) hl hm.2
  have reach : ∀ y ∈ s.conflictSet o profile len a, ticksTo a (s.guardedEnd o profile y.2) < 140737488355328 :=
    fun y hy => Nat.lt_trans (until' y hy).2.1 (by decide)
  rw [hz] at until' reach ⊢
  obtain ⟨which, first, others⟩ := foldl_laterOf a (fun w : Nat × Record => s.guardedEnd o profile w.2) zs
    (s.guardedEnd o profile z.2) (reach z (by simp)) (fun w hw => reach w (by simp [hw]))
  generalize zs.foldl (fun e z => laterOf e (s.guardedEnd o profile z.2)) (s.guardedEnd o profile z.2) = next
    at which first others ⊢
  obtain ⟨w, hw, far⟩ : ∃ w ∈ z :: zs, next = s.guardedEnd o profile w.2 := by
    rcases which with which | ⟨w, hw, which⟩
    · exact ⟨z, by simp, which⟩
    · exact ⟨w, by simp [hw], which⟩
  obtain ⟨-, short, taken, -⟩ := until' w hw
  rw [← far] at short taken
  refine ⟨ticksTo a next, (plus_ticksTo a next).symm, short, fun i hi => ?_, fun y hy i hi => ?_⟩
  · exact takenAt_of_mem s o profile len a _ w (hz ▸ hw) (taken i hi)
  · have nearer : ticksTo a (s.guardedEnd o profile y.2) ≤ ticksTo a next := by
      rcases List.mem_cons.mp hy with rfl | hy
      · exact first
      · exact others y hy
    exact (until' y hy).2.2.2 i (Nat.le_trans nearer hi)

end

/-- What a walk of R74 from `d` ticks past `low` has shown by its end: every start it passed is taken. -/
def State.passedTaken (s : State) (o : Owner) (profile len : Nat) (low : LocalTime) (range d : Nat) :
    Option LocalTime → Prop
  | some b => ∃ e, d ≤ e ∧ e ≤ range ∧ b = plus low e ∧ ∀ i, d ≤ i → i < e → s.takenAt o profile len (plus low i)
  | none => ∀ i, d ≤ i → i ≤ range → s.takenAt o profile len (plus low i)

theorem passedTaken_of_later {s : State} {o : Owner} {profile len : Nat} {low : LocalTime} {range d e : Nat}
    {found : Option LocalTime} (hd : d ≤ e) (passed : ∀ i, d ≤ i → i < e → s.takenAt o profile len (plus low i))
    (later : s.passedTaken o profile len low range e found) : s.passedTaken o profile len low range d found := by
  cases found with
  | none => exact fun i hi hr => if h : i < e then passed i hi h else later i (by omega) hr
  | some b =>
    obtain ⟨f, hf, hr, hbf, taken⟩ := later
    exact ⟨f, by omega, hr, hbf, fun i hi hif => if h : i < e then passed i hi h else taken i (by omega) hif⟩

/-- A walk with more steps left than windows still ahead of it passes taken starts alone. Each step leaves the windows of
its conflict set behind, so that the walk never runs out of steps. -/
theorem searchFrom_passedTaken (s : State) (o : Owner) (profile len : Nat) (low latest : LocalTime)
    (hb : s.windowsBounded) (hl : len + s.arb.guard < 17592186044416) (hr : ticksTo low latest < 17592186044416)
    (left d : Nat) (ahead : List (Nat × Record)) (hd : d < 70368744177664) (hleft : ahead.length < left)
    (hahead : ∀ y ∈ s.timeline, ∀ i, d ≤ i → i ≤ ticksTo low latest → s.conflicts o profile (plus low i) len y.2 = true →
      y ∈ ahead) :
    s.passedTaken o profile len low (ticksTo low latest) d
      (s.searchFrom o profile len latest left (plus low d)) := by
  induction left generalizing d ahead with
  | zero => omega
  | succ left ih =>
    have dist : ticksTo low (plus low d) = d := by rw [ticksTo_plus, ticksTo_self]; omega
    cases late : before latest (plus low d) with
    | true =>
      rw [searchFrom_late s o profile len latest _ _ late]
      have beyond := (before_iff latest (plus low d) low (by omega) (by omega)).mp late
      exact fun i hi hi' => absurd hi' (by omega)
    | false =>
      have inRange := (before_eq_false latest (plus low d) low (by omega) (by omega)).mp late
      rw [dist] at inRange
      cases hz : s.conflictSet o profile len (plus low d) with
      | nil =>
        rw [searchFrom_clear s o profile len latest left _ late ((conflictSet_eq_nil s o profile len _).mp hz)]
        exact ⟨d, Nat.le_refl d, inRange, rfl, fun i hi hi' => absurd hi' (by omega)⟩
      | cons z zs =>
        obtain ⟨e, next, short, taken, behind⟩ := step_passes s o profile len (plus low d) hb hl z zs hz
        rw [searchFrom_conflict s o profile len latest left _ late z zs hz, next, plus_plus]
        have shift : ∀ i, d ≤ i → plus low i = plus (plus low d) (i - d) := fun i hi => by
          rw [plus_plus, Nat.add_sub_cancel' hi]
        refine passedTaken_of_later (Nat.le_add_right d e) (fun i hi hie => ?_)
          (ih (d + e) (ahead.filter (fun y => !s.conflicts o profile (plus low d) len y.2)) (by omega) ?_ ?_)
        · rw [shift i hi]
          exact taken _ (by omega)
        · have hzc : z ∈ s.timeline ∧ s.conflicts o profile (plus low d) len z.2 = true :=
            List.mem_filter.mp (show z ∈ s.conflictSet o profile len (plus low d) by rw [hz]; simp)
          have shorter := (List.length_filter_lt_length_iff_exists
            (p := fun y => !s.conflicts o profile (plus low d) len y.2)).mpr
            ⟨z, hahead z hzc.1 d (Nat.le_refl d) inRange hzc.2, by simp [hzc.2]⟩
          omega
        · intro y hy i hi hi' hc
          refine List.mem_filter.mpr ⟨hahead y hy i (by omega) hi' hc, ?_⟩
          cases here : s.conflicts o profile (plus low d) len y.2 with
          | false => rfl
          | true =>
            have gone := behind y (List.mem_filter.mpr ⟨hy, here⟩) (i - d) (by omega) (by omega)
            rw [← shift i (by omega), hc] at gone
            cases gone

section
variable (s : State) (o : Owner) (profile len : Nat) (low latest : LocalTime)

theorem search_sound (b : LocalTime) (h : s.search o profile len low latest = some b) :
    s.clearAt o profile b len ∧ before latest b = false := searchFrom_sound s o profile len latest _ low b h

theorem search_clear (h : before latest low = false) (hc : s.clearAt o profile low len) :
    s.search o profile len low latest = some low := searchFrom_clear s o profile len latest _ low h hc

theorem search_late (h : before latest low = true) : s.search o profile len low latest = none :=
  searchFrom_late s o profile len latest _ low h

/-- R74: a search answers the earliest start. -/
theorem search_passedTaken (hb : s.windowsBounded) (hl : len + s.arb.guard < 17592186044416)
    (hr : ticksTo low latest < 17592186044416) :
    s.passedTaken o profile len low (ticksTo low latest) 0 (s.search o profile len low latest) := by
  have walk := searchFrom_passedTaken s o profile len low latest hb hl hr (s.timeline.length + 1) 0 s.timeline
    (by decide) (Nat.lt_succ_self _) (fun y hy _ _ _ _ => hy)
  rwa [plus_zero] at walk

end

/-- Settles O28: soundness by induction on the walk, and the earliest start by what each step of it leaves behind. -/
theorem searchFindsAFreeStart : Obligations.SearchFindsAFreeStart := by
  intro s o profile len low latest
  refine ⟨search_sound s o profile len low latest, fun hc h => search_clear s o profile len low latest h hc,
    search_late s o profile len low latest, fun hb hl hr => ?_⟩
  have passed := search_passedTaken s o profile len low latest hb hl hr
  refine ⟨fun b hs => ?_, fun hs d hd => ?_⟩
  · rw [hs] at passed
    obtain ⟨d, -, hd, hbd, taken⟩ := passed
    exact ⟨d, hd, hbd, fun e he => taken e (Nat.zero_le e) he⟩
  · rw [hs] at passed
    exact passed d (Nat.zero_le d) hd

end Sys2Proof.Machine
end

section
namespace Sys2Proof.Machine

/-! ### What placing one window leaves alone -/

section
variable (s : State)

@[simp] theorem record?_post (o : Owner) (k : EventKind) (x : Nat) (r : Reason) (f : BitVec 8) (d : BitVec 16) (j : Nat) :
    (s.post o k x r f d).record? j = s.record? j := rfl

@[simp] theorem port_post (o : Owner) (q : Port) (k : EventKind) (x : Nat) (r : Reason) (f : BitVec 8) (d : BitVec 16) :
    (s.post o k x r f d).port q = if q = o.port then (s.port o.port).push ⟨k, x, r, f, d, s.tb.lt⟩ else s.port q :=
  port_postPort s o.port q k x r f d

theorem Owner.port_injective {o u : Owner} (h : o.port = u.port) : o = u := by
  cases o <;> cases u <;> trivial

/-- `t` is `s` but for the record of `h`, the port of `o` and what no arbitration reads: policy and tokens, WC, LT, the other
records and the other ports stay. -/
structure OnlyPlaced (s t : State) (h : Nat) (o : Owner) : Prop where
  arb : t.arb = s.arb
  wc : t.wc = s.wc
  tb : t.tb = s.tb
  records : ∀ k, k ≠ h → t.record? k = s.record? k
  ports : ∀ p, p ≠ o.port → t.port p = s.port p

namespace OnlyPlaced

theorem refl (h : Nat) (o : Owner) : OnlyPlaced s s h o := ⟨rfl, rfl, rfl, fun _ _ => rfl, fun _ _ => rfl⟩

theorem trans {s t u : State} {h : Nat} {o : Owner} (a : OnlyPlaced s t h o) (b : OnlyPlaced t u h o) :
    OnlyPlaced s u h o :=
  ⟨b.arb.trans a.arb, b.wc.trans a.wc, b.tb.trans a.tb, fun k hk => (b.records k hk).trans (a.records k hk),
    fun p hp => (b.ports p hp).trans (a.ports p hp)⟩

theorem updateOcc (h : Nat) (o : Owner) (g : Occurrence → Occurrence) : OnlyPlaced s (s.updateOcc h g) h o :=
  ⟨by simp, by simp, by simp, fun k hk => by simp [hk], fun p _ => by simp [State.port]⟩

theorem post (h : Nat) (o : Owner) (k : EventKind) (x : Nat) (r : Reason) (f : BitVec 8) (d : BitVec 16) :
    OnlyPlaced s (s.post o k x r f d) h o :=
  ⟨rfl, rfl, rfl, fun _ _ => rfl, fun p hp => by rw [port_post, if_neg hp]⟩

theorem free (h : Nat) (o : Owner) (n : Nat) : OnlyPlaced s { s with free := n } h o :=
  ⟨rfl, rfl, rfl, fun _ _ => rfl, fun _ _ => rfl⟩

theorem setNotice (h : Nat) (r : Record) (o : Owner) (hr : s.record? h = some r) (ho : r.owner = o) :
    OnlyPlaced s (s.setNotice h) h o := by
  subst ho
  simp only [State.setNotice, hr]
  split
  · exact updateOcc s h _ _
  · unfold State.postNotice
    dsimp only
    split
    · exact (updateOcc s h _ _).trans (post _ _ _ _ _ _ _ _)
    · exact ((updateOcc s h _ _).trans (free _ _ _ _)).trans (post _ _ _ _ _ _ _ _)

end OnlyPlaced

/-- A window with another notice. -/
def Record.withNotice (r : Record) (notice : Option LocalTime) : Record := { r with occ := { r.occ with notice := notice } }

/-- A window GRANTED at a start. -/
def Record.grantedAt (r : Record) (start : LocalTime) (shift : Nat) : Record :=
  { r with occ := { r.occ with state := .granted, placed := start, shift := shift } }

/-- A window out of the timeline, without a notice. -/
def Record.withdrawn (r : Record) : Record := { r with occ := { r.occ with state := .withdrawn, notice := none } }

theorem record?_setNotice (h : Nat) (r : Record) (hr : s.record? h = some r) :
    ∃ notice, (s.setNotice h).record? h = some (r.withNotice notice) := by
  simp only [State.setNotice, hr]
  split
  · exact ⟨some (less r.occ.placed s.sc.params.lead), by rw [record?_updateOcc, if_pos rfl, hr]; rfl⟩
  · refine ⟨none, ?_⟩
    have done : (s.updateOcc h (fun x => { x with notice := none })).record? h = some (r.withNotice none) := by
      rw [record?_updateOcc, if_pos rfl, hr]
      rfl
    unfold State.postNotice
    dsimp only
    split <;> exact done

/-- A window stands GRANTED at a start, with some notice (R71, R75, R97). -/
def State.standsAt (t : State) (h : Nat) (r : Record) (start : LocalTime) (shift : Nat) : Prop :=
  ∃ notice, t.record? h = some ((r.grantedAt start shift).withNotice notice)

theorem record?_grantedAt (h : Nat) (r : Record) (start : LocalTime) (shift : Nat) (hr : s.record? h = some r) :
    (s.updateOcc h (fun x => { x with state := .granted, placed := start, shift := shift })).record? h
      = some (r.grantedAt start shift) := by
  rw [record?_updateOcc, if_pos rfl, hr]
  rfl

/-- A window granted a start, told so or not, and given its notice: it stands there, and nothing else is placed. -/
theorem placed_standsAt (h : Nat) (r : Record) (start : LocalTime) (shift : Nat) (told : Bool)
    (hr : s.record? h = some r) :
    let s1 := s.updateOcc h (fun x => { x with state := .granted, placed := start, shift := shift })
    let t := (if told then s1.postDeferred r.owner h shift else s1).setNotice h
    t.standsAt h r start shift ∧ OnlyPlaced s t h r.owner := by
  intro s1 t
  have granted := record?_grantedAt s h r start shift hr
  have first := OnlyPlaced.updateOcc s h r.owner
    (fun x => { x with state := .granted, placed := start, shift := shift })
  cases told with
  | true =>
    have toldGranted : (s1.postDeferred r.owner h shift).record? h = some (r.grantedAt start shift) := granted
    exact ⟨record?_setNotice _ h _ toldGranted,
      (first.trans (OnlyPlaced.post s1 h r.owner _ _ _ _ _)).trans (OnlyPlaced.setNotice _ h _ _ toldGranted rfl)⟩
  | false => exact ⟨record?_setNotice s1 h _ granted, first.trans (OnlyPlaced.setNotice s1 h _ _ granted rfl)⟩

theorem grantAt_standsAt (h : Nat) (r : Record) (start : LocalTime) (shift : Nat) (hr : s.record? h = some r) :
    (s.grantAt h start shift).standsAt h r start shift ∧ OnlyPlaced s (s.grantAt h start shift) h r.owner :=
  placed_standsAt s h r start shift false hr

end

/-! ### The loser of a contest (R75, R76) -/

/-- R76: a displaced window is placed again where its search finds a start. -/
theorem displace_found (s : State) (h : Nat) (r : Record) (nominal guardedEnd at' : LocalTime)
    (hr : s.record? h = some r.withdrawn) (hn : r.occ.nominal = some nominal)
    (hs : s.search r.owner r.occ.profile r.occ.remaining (laterOf nominal guardedEnd) (plus nominal r.occ.slack)
      = some at') :
    (s.displace h r guardedEnd).2 = [] ∧ (s.displace h r guardedEnd).1.standsAt h r at' (ticksTo nominal at')
      ∧ OnlyPlaced s (s.displace h r guardedEnd).1 h r.owner := by
  have placed := placed_standsAt s h r.withdrawn at' (ticksTo nominal at') true hr
  simp only [State.displace, hn, Option.getD_some, hs]
  exact ⟨trivial, placed⟩

/-- R76: else it goes DENIED. -/
theorem displace_denied (s : State) (h : Nat) (r : Record) (nominal guardedEnd : LocalTime)
    (hn : r.occ.nominal = some nominal)
    (hs : s.search r.owner r.occ.profile r.occ.remaining (laterOf nominal guardedEnd) (plus nominal r.occ.slack) = none) :
    s.displace h r guardedEnd = (s.postLost r.owner h r.occ.k .displaced, [.ended h r.occ.k (.denied true)]) := by
  simp only [State.displace, hn, Option.getD_some, hs]

/-- R75: an arrival beaten by one window is placed after it where its search finds a start, else it goes DENIED. -/
theorem defer_cases (w : Work) (h : Nat) (r : Record) (start : LocalTime) (c : Contest) (origin : Origin)
    (hr : w.st.record? h = some r) :
    let t := (w.defer h r start [c] origin).1.st
    let tasks := (w.defer h r start [c] origin).2
    OnlyPlaced w.st t h r.owner
      ∧ ((t.record? h = some r ∧ tasks = [.ended h r.occ.k (.denied false)])
        ∨ (tasks = [] ∧ ∃ at', t.standsAt h r at' (ticksTo start at')
            ∧ w.st.search r.owner r.occ.profile r.occ.remaining
                (laterOf start (w.st.guardedEnd r.owner r.occ.profile c.rival)) (plus start r.occ.slack) = some at')) := by
  intro t tasks
  cases hs : w.st.search r.owner r.occ.profile r.occ.remaining
      (laterOf start (w.st.guardedEnd r.owner r.occ.profile c.rival)) (plus start r.occ.slack) with
  | none =>
    have ht : t = if origin == .admission then w.st else w.st.postLost r.owner h r.occ.k .denied := by
      simp only [t, Work.defer, List.foldl_cons, List.foldl_nil, hs, Planned.report]
    have denied : tasks = [.ended h r.occ.k (.denied false)] := by
      simp only [tasks, Work.defer, List.foldl_cons, List.foldl_nil, hs]
    rw [ht]
    split
    · exact ⟨OnlyPlaced.refl _ h _, .inl ⟨hr, denied⟩⟩
    · exact ⟨OnlyPlaced.post _ h _ _ _ _ _ _, .inl ⟨hr, denied⟩⟩
  | some at' =>
    have placed := placed_standsAt w.st h r at' (ticksTo start at') (!(origin == .admission)) hr
    have ht : t = (if !(origin == .admission) then
        (w.st.updateOcc h (fun x => { x with state := .granted, placed := at', shift := ticksTo start at' })).postDeferred
          r.owner h (ticksTo start at')
        else w.st.updateOcc h (fun x => { x with state := .granted, placed := at', shift := ticksTo start at' })).setNotice
          h := by
      simp only [t, Work.defer, List.foldl_cons, List.foldl_nil, hs, Planned.report]
      cases origin == .admission <;> rfl
    have none_ended : tasks = [] := by
      simp only [tasks, Work.defer, List.foldl_cons, List.foldl_nil, hs]
    rw [ht]
    exact ⟨placed.2, .inr ⟨none_ended, at', placed.1, rfl⟩⟩

/-! ### Where a loser is placed again -/

theorem ticksTo_between (c a b : LocalTime) :
    ticksTo a b = (281474976710656 - ticksTo c a + ticksTo c b) % 281474976710656 := by
  simp only [ticksTo, BitVec.toNat_sub]
  omega

/-- A search within a slack answers no start before the later of the nominal start and the end it must respect. -/
theorem search_not_before (s : State) (o : Owner) (profile len slack : Nat) (nominal beaten at' : LocalTime)
    (hb : s.windowsBounded) (hl : len + s.arb.guard < 17592186044416) (hslack : slack < 17592186044416)
    (hs : s.search o profile len (laterOf nominal beaten) (plus nominal slack) = some at') :
    before at' (laterOf nominal beaten) = false := by
  have inTime : before (plus nominal slack) (laterOf nominal beaten) = false :=
    Bool.eq_false_iff.mpr fun late => by rw [search_late _ _ _ _ _ _ late] at hs; cases hs
  have dist : ticksTo nominal (plus nominal slack) = slack := by rw [ticksTo_plus, ticksTo_self]; omega
  have low : ticksTo nominal (laterOf nominal beaten) < 140737488355328 := by
    unfold laterOf
    split
    · simp_all [before]
    · simp
  have order := (before_eq_false (plus nominal slack) (laterOf nominal beaten) nominal (by omega) low).mp inTime
  have range := ticksTo_between nominal (laterOf nominal beaten) (plus nominal slack)
  have passed := search_passedTaken s o profile len (laterOf nominal beaten) (plus nominal slack) hb hl (by omega)
  rw [hs] at passed
  obtain ⟨e, -, he, rfl, -⟩ := passed
  generalize laterOf nominal beaten = a at *
  have past : ticksTo a (plus a e) = e := by rw [ticksTo_plus, ticksTo_self]; omega
  exact Bool.eq_false_iff.mpr fun early => by
    have := (before_iff (plus a e) a a (by omega) (by simp)).mp early
    simp at this

/-- Conflicts read the guard and the window alone (R63). -/
theorem conflicts_congr {s t : State} (h : t.arb.guard = s.arb.guard) (o : Owner) (profile : Nat) (a : LocalTime)
    (len : Nat) (y : Record) : t.conflicts o profile a len y = s.conflicts o profile a len y := by
  simp only [State.conflicts, State.guardTo, h]

end Sys2Proof.Machine
end

section
namespace Sys2Proof.Machine

/-! ### The token (R64, R68) -/

theorem classOf_lt (s : State) (level : Nat) : s.classOf level < 4 := by
  simp only [State.classOf]
  grind

theorem classOf_eq_zero (s : State) (level : Nat) : s.classOf level = 0 ↔ level < s.arb.t1 := by
  simp only [State.classOf]
  grind

/-- R68: the token of the class passes, and no other. -/
theorem token_passToken (s : State) (cls c : Nat) (holder : Owner) (h : cls < 4) :
    (s.passToken cls holder).token c = if c = cls then holder.other else s.token c := by
  simp only [State.token, State.passToken, Vector.getElem?_setIfInBounds]
  grind

theorem token_congr {s t : State} (h : t.arb = s.arb) (c : Nat) : t.token c = s.token c := by
  simp only [State.token, h]

/-! ### An arrival with one rival (R70 to R72) -/

/-- The contest of an arriving record with one rival. -/
def State.contestOf (s : State) (h : Nat) (r : Record) (rival : Nat × Record) : Contest :=
  s.contest (s.token (s.classOf r.occ.level)) (arrivalOf (h, r)) rival

/-- What an arrival that is no part of a yield comes to with one rival: granted where it wins, else deferred. -/
def Work.outcome (w : Work) (h : Nat) (r : Record) (start : LocalTime) (origin : Origin) (c : Contest) :
    Work × List Task :=
  if c.won then w.grant h r start [c] false origin else w.defer h r start [c] origin

/-- An arbitration with one rival and nothing yield-open is that contest's outcome, and then the token's pass. -/
theorem arbitrate_one (w : Work) (h k : Nat) (r q : Record) (origin : Origin) (start : LocalTime)
    (hn : r.occ.nominal = some start)
    (alone : w.st.conflictSet r.owner r.occ.profile r.occ.remaining start = [(k, q)])
    (closed : (w.st.contestOf h r (k, q)).isOpen = false) :
    let c := w.st.contestOf h r (k, q)
    let d := w.outcome h r start origin c
    let cls := w.st.classOf r.occ.level
    w.arbitrate h r origin
      = (if c.decided == .token then { d.1 with st := d.1.st.passToken cls (w.st.token cls) } else d.1, d.2) := by
  intro c d cls
  have one : w.st.contests ⟨h, r.owner, r.kind, r.occ.level⟩ r.occ.profile start r.occ.remaining = [c] := by
    rw [State.conflictSet] at alone
    simp only [State.contests, alone, List.map_cons, List.map_nil]
    rfl
  have decision : w.decide' h r start origin [c] = (d, false) := by
    cases hw : c.won <;> simp [Work.decide', Work.outcome, d, hw, closed, c]
  simp only [Work.arbitrate, hn, Option.getD_some, one, decision, List.any_cons, List.any_nil, Bool.false_and,
    Bool.not_false, Bool.and_true, Bool.or_false]
  rfl

/-- Nothing is yield-open where neither window is a call burst, or the rival is ACTIVE (R69). -/
theorem contestOf_closed (s : State) (h k : Nat) (r q : Record)
    (hc : (r.kind.isCall = false ∧ q.kind.isCall = false) ∨ q.occ.state = .active) :
    (s.contestOf h r (k, q)).isOpen = false := by
  rcases hc with ⟨hr, hq⟩ | ha
  · simp [State.contestOf, State.contest, arrivalOf, hr, hq]
  · simp [State.contestOf, State.contest, ha]

/-- R72: an arrival that beats a GRANTED window takes its start, and the window is displaced. -/
theorem grant_granted (w : Work) (h : Nat) (r : Record) (start : LocalTime) (c : Contest) (origin : Origin)
    (hg : c.rival.occ.state = .granted) :
    let s1 := (w.st.withdraw [c.handle]).grantAt h start 0
    let d := s1.displace c.handle c.rival (plus start (r.occ.remaining + s1.guardTo r.owner r.occ.profile c.rival))
    (w.grant h r start [c] false origin).1.st = d.1 ∧ (w.grant h r start [c] false origin).2 = d.2 := by
  simp [Work.grant, hg, State.handleMembers, State.handleMember, Planned.report]

/-- R72, R78: an arrival that beats the ACTIVE window takes its start, and the window is cut. -/
theorem grant_active (w : Work) (h : Nat) (r : Record) (start : LocalTime) (c : Contest) (origin : Origin)
    (ha : c.rival.occ.state = .active) :
    let s1 := w.st.grantAt h start 0
    let d := (s1.scheduleCut c.handle c.rival start r.occ.remaining).cutAtOnce c.handle
    (w.grant h r start [c] false origin).1.st = d.1 ∧ (w.grant h r start [c] false origin).2 = d.2 := by
  simp [Work.grant, ha, State.handleMembers, Planned.report, State.withdraw]

theorem record?_withdraw_one (s : State) (h : Nat) (r : Record) (hr : s.record? h = some r) :
    (s.withdraw [h]).record? h = some r.withdrawn ∧ OnlyPlaced s (s.withdraw [h]) h r.owner := by
  refine ⟨?_, OnlyPlaced.updateOcc s h r.owner (fun x => { x with state := .withdrawn, notice := none })⟩
  simp only [State.withdraw, List.foldl_cons, List.foldl_nil, record?_updateOcc, if_true, hr]
  rfl

/-! ### Cuts (R78, R79) -/

/-- What R78 stores on the ACTIVE window for an arrival placed at a start. -/
def Record.cutFor (q : Record) (now : LocalTime) (guard : Nat) (start : LocalTime) (len : Nat) : Occurrence :=
  let cut := laterOf now (less start guard)
  let floor := plus start (len + guard)
  { q.occ with
    cutAt := some (match q.occ.cutAt with
      | none => cut
      | some c => earlierOf c cut)
    shortfall := match q.occ.cutAt with
      | none => decide (ticksTo cut start < guard)
      | some c => if before cut c then decide (ticksTo cut start < guard) else q.occ.shortfall
    resumeFloor := some (match q.occ.cutAt with
      | none => floor
      | some _ => laterOf (q.occ.resumeFloor.getD floor) floor)
    deadline := some (q.occ.deadline.getD (plus (q.occ.firstRise.getD q.occ.placed) (q.length + q.occ.slack))) }

theorem record?_scheduleCut (s : State) (h : Nat) (q : Record) (start : LocalTime) (len : Nat)
    (hq : s.record? h = some q) :
    (s.scheduleCut h q start len).record? h = some { q with occ := q.cutFor s.tb.lt s.arb.guard start len }
      ∧ ∀ o, OnlyPlaced s (s.scheduleCut h q start len) h o := by
  refine ⟨?_, fun o => by unfold State.scheduleCut; exact OnlyPlaced.updateOcc s h o _⟩
  simp only [State.scheduleCut, record?_updateOcc, if_true, hq, Option.map_some, Record.cutFor]
  cases q.occ.cutAt <;> rfl

/-- A window whose part has ended at an LT (R94). -/
def Record.endedAt (q : Record) (at' : LocalTime) : Record :=
  { q with occ := { q.occ with
      state := .withdrawn, served := q.occ.served + ticksTo q.occ.placed at'
      remaining := q.occ.remaining - ticksTo q.occ.placed at', cutAt := none, notice := none } }

theorem record?_endPart (s : State) (h j : Nat) (at' : LocalTime) :
    (s.endPart h at').record? j = if j = h then (s.record? h).map (·.endedAt at') else s.record? j :=
  record?_updateOcc s h j _

theorem endPart_wc (s : State) (h : Nat) (at' : LocalTime) :
    (s.endPart h at').wc = { s.wc with rxEn := false, txEn := false, lastEnd := some at' } := by
  simp [State.endPart, State.dropLines]

theorem endPart_port (s : State) (h : Nat) (at' : LocalTime) (p : Port) : (s.endPart h at').port p = s.port p := by
  simp [State.endPart, State.port]

theorem endPart_tb (s : State) (h : Nat) (at' : LocalTime) : (s.endPart h at').tb = s.tb := by
  simp [State.endPart]

/-- R79: a cut short of the end of a window that cannot be resumed, or was suspended three times, ends it CUT. -/
theorem takeCut_ends (s : State) (h : Nat) (q : Record) (cut : LocalTime) (hq : s.record? h = some q)
    (final : q.occ.resumable = false ∨ 3 ≤ q.occ.suspensions) (short : ticksTo q.occ.placed cut < q.occ.remaining) :
    s.takeCut h cut
      = ((s.endPart h cut).post q.owner .windowEnd h .cut (windowEndFlags false true false q.occ)
          (sat16 ((q.endedAt cut).occ.served / 16)), some .cut) := by
  have ended : (s.endPart h cut).record? h = some (q.endedAt cut) := by rw [record?_endPart, if_pos rfl, hq]; rfl
  have left : (q.endedAt cut).occ.remaining ≠ 0 := by simp only [Record.endedAt]; omega
  have last : ((q.endedAt cut).occ.resumable && decide ((q.endedAt cut).occ.suspensions < 3)) = false := by
    rcases final with h1 | h3
    · simp [Record.endedAt, h1]
    · have spent : ¬q.occ.suspensions < 3 := by omega
      simp [Record.endedAt, spent]
  simp only [State.takeCut, ended, beq_iff_eq, if_neg left, last, State.postWindowEnd]
  rfl

/-- R78: a cut scheduled for later than LT waits. -/
theorem cutAtOnce_waits (s : State) (h : Nat) (q : Record) (hq : s.record? h = some q)
    (later : q.occ.cutAt ≠ some s.tb.lt) : s.cutAtOnce h = (s, []) := by
  simp [State.cutAtOnce, hq, later]

/-- R78, R79: a cut scheduled for LT is taken at once. -/
theorem cutAtOnce_ends (s : State) (h : Nat) (q : Record) (hq : s.record? h = some q) (ha : q.occ.state = .active)
    (now : q.occ.cutAt = some s.tb.lt) (final : q.occ.resumable = false ∨ 3 ≤ q.occ.suspensions)
    (short : ticksTo q.occ.placed s.tb.lt < q.occ.remaining) :
    s.cutAtOnce h
      = ((s.endPart h s.tb.lt).post q.owner .windowEnd h .cut (windowEndFlags false true false q.occ)
          (sat16 ((q.endedAt s.tb.lt).occ.served / 16)), [.ended h q.occ.k .cut]) := by
  simp [State.cutAtOnce, hq, ha, now, takeCut_ends s h q s.tb.lt hq final short]

end Sys2Proof.Machine
end

section
namespace Sys2Proof.Machine

/-! ### A rival of the other owner, GRANTED (R64, R67, R68, R71, R72, R75, R76) -/

/-- A window that lost stands again within its slack, clear of every other window of `t`, not before its nominal start nor
before `beaten`, the guarded end of the window that beat it (R74, R75, R76). -/
def State.placedAgain (s t : State) (j : Nat) (x : Record) (nominal beaten : LocalTime) : Prop :=
  ∃ at' notice, t.record? j = some ((x.grantedAt at' (ticksTo nominal at')).withNotice notice)
    ∧ before (plus nominal x.occ.slack) at' = false
    ∧ (s.windowsBounded → x.occ.remaining + s.arb.guard < 17592186044416 → x.occ.slack < 17592186044416 →
        (∀ i y, i ≠ j → t.record? i = some y → y.occ.state.inTimeline = true →
          ticksTo y.occ.placed y.occ.endLt + s.arb.guard < 17592186044416) →
        before at' (laterOf nominal beaten) = false)
    ∧ ∀ i y, i ≠ j → t.record? i = some y → y.occ.state.inTimeline = true →
        t.conflicts x.owner x.occ.profile at' x.occ.remaining y = false

/-- A window that stands where a search in `u` has put it is placed again, where `u` has the other windows of `t`. -/
theorem placedAgain_of_search {s u t : State} {j : Nat} {x : Record} {nominal beaten at' : LocalTime}
    (stands : t.standsAt j x at' (ticksTo nominal at'))
    (found : u.search x.owner x.occ.profile x.occ.remaining (laterOf nominal beaten) (plus nominal x.occ.slack)
      = some at')
    (others : ∀ i, i ≠ j → t.record? i = u.record? i) (hs : u.arb.guard = s.arb.guard) (ht : t.arb.guard = u.arb.guard)
    (bounded : s.windowsBounded → (∀ i y, i ≠ j → u.record? i = some y → y.occ.state.inTimeline = true →
      ticksTo y.occ.placed y.occ.endLt + s.arb.guard < 17592186044416) → u.windowsBounded) :
    s.placedAgain t j x nominal beaten := by
  obtain ⟨notice, stands⟩ := stands
  obtain ⟨clear, inTime⟩ := search_sound _ _ _ _ _ _ _ found
  refine ⟨at', notice, stands, inTime, fun hb hl hslack hw => ?_, fun i y hi hy hy' => ?_⟩
  · refine search_not_before u _ _ _ _ _ _ _ (bounded hb fun i y hi hy => hw i y hi ?_) (by rw [hs]; exact hl) hslack found
    rw [others i hi, hy]
  · rw [conflicts_congr ht]
    rw [others i hi] at hy
    exact clear i y hy hy'

/-- The contest with a GRANTED rival of the other owner, by class and then by token (R67). -/
theorem contestOf_other_owner (s : State) (h k : Nat) (r q : Record) (ho : q.owner ≠ r.owner)
    (hg : q.occ.state = .granted) :
    let cls := fun (x : Record) => s.classOf x.occ.level
    let c := s.contestOf h r (k, q)
    (cls r < cls q ∨ (cls r = cls q ∧ s.token (cls r) = r.owner) → c.won = true)
      ∧ (cls q < cls r ∨ (cls r = cls q ∧ s.token (cls r) = q.owner) → c.won = false)
      ∧ (c.decided = .token ↔ cls r = cls q) := by
  intro cls c
  have ha : q.occ.state ≠ .active := by rw [hg]; decide
  by_cases hc : cls r = cls q
  · have step : s.beats (s.token (cls r)) (arrivalOf (h, r)) k q = _ := beats_token s _ _ k q ha hc (Ne.symm ho)
    have won : c.won = (s.token (cls r) == r.owner) := congrArg Prod.fst step
    have decided : c.decided = .token := congrArg Prod.snd step
    rw [won]
    refine ⟨fun hw => ?_, fun hl => ?_, by simp [decided, hc]⟩
    · rcases hw with hw | hw
      · omega
      · simp [hw.2]
    · rcases hl with hl | hl
      · omega
      · simp [hl.2, ho]
  · have step : s.beats (s.token (cls r)) (arrivalOf (h, r)) k q = _ := beats_class s _ _ k q ha hc
    have won : c.won = decide (cls r < cls q) := congrArg Prod.fst step
    have decided : c.decided = .cls := congrArg Prod.snd step
    rw [won, decided]
    refine ⟨fun hw => ?_, fun hl => ?_, by simp [hc]⟩ <;> simp <;> omega

/-- The winner stands at its nominal start; the GRANTED rival is placed again after it or goes DENIED (R72, R76). -/
theorem grant_displaces (w : Work) (h k : Nat) (r q : Record) (start first : LocalTime) (c : Contest) (origin : Origin)
    (hr : w.st.record? h = some r) (hk : w.st.record? k = some q) (hne : h ≠ k) (hch : c.handle = k) (hcr : c.rival = q)
    (hg : q.occ.state = .granted) (ho : q.owner ≠ r.owner) (hn : q.occ.nominal = some first) :
    let t := (w.grant h r start [c] false origin).1.st
    let tasks := (w.grant h r start [c] false origin).2
    t.arb = w.st.arb ∧ t.standsAt h r start 0
      ∧ ((w.st.placedAgain t k q first (plus start (r.occ.remaining + w.st.arb.guard)) ∧ tasks = [])
        ∨ ((∃ y, t.record? k = some y ∧ y.occ.state = .withdrawn) ∧ tasks = [.ended k q.occ.k (.denied true)])) := by
  intro t tasks
  subst hch hcr
  obtain ⟨gone, withdrawn⟩ := record?_withdraw_one w.st c.handle c.rival hk
  obtain ⟨stands, granted⟩ := grantAt_standsAt (w.st.withdraw [c.handle]) h r start 0
    ((withdrawn.records h hne).trans hr)
  obtain ⟨ht, htasks⟩ := grant_granted w h r start c origin hg
  generalize (w.st.withdraw [c.handle]).grantAt h start 0 = u at *
  have arb : u.arb = w.st.arb := granted.arb.trans withdrawn.arb
  have guard : u.guardTo r.owner r.occ.profile c.rival = w.st.arb.guard := by
    simp [State.guardTo, Ne.symm ho, arb]
  rw [guard] at ht htasks
  have hu : u.record? c.handle = some c.rival.withdrawn := (granted.records c.handle (Ne.symm hne)).trans gone
  have kept : ∀ v, OnlyPlaced u v c.handle c.rival.owner → v.arb = w.st.arb ∧ v.standsAt h r start 0 := fun v hv => by
    obtain ⟨notice, stands⟩ := stands
    exact ⟨hv.arb.trans arb, notice, (hv.records h hne).trans stands⟩
  simp only [t, tasks, ht, htasks]
  cases hs : u.search c.rival.owner c.rival.occ.profile c.rival.occ.remaining
      (laterOf first (plus start (r.occ.remaining + w.st.arb.guard))) (plus first c.rival.occ.slack) with
  | none =>
    rw [displace_denied u c.handle c.rival first _ hn hs]
    obtain ⟨arb', stands'⟩ := kept _ (OnlyPlaced.post u c.handle c.rival.owner .occLost c.handle .displaced 0
      (low16 c.rival.occ.k))
    exact ⟨arb', stands', .inr ⟨⟨c.rival.withdrawn, hu, rfl⟩, rfl⟩⟩
  | some at' =>
    obtain ⟨no_task, again, placed⟩ := displace_found u c.handle c.rival first _ at' hu hn hs
    obtain ⟨arb', stands'⟩ := kept _ placed
    refine ⟨arb', stands', .inl ⟨placedAgain_of_search again hs placed.records (by rw [arb]) (by rw [placed.arb])
      fun _ hw i y hy hi => ?_, no_task⟩⟩
    rw [arb]
    by_cases hik : i = c.handle
    · rw [hik, hu] at hy
      cases hy
      cases hi
    · exact hw i y hik hy hi

/-- The loser is placed again after the GRANTED rival, or goes DENIED; the rival stays (R71, R75). -/
theorem defer_after_rival (w : Work) (h k : Nat) (r q : Record) (start : LocalTime) (c : Contest) (origin : Origin)
    (hr : w.st.record? h = some r) (hk : w.st.record? k = some q) (hne : h ≠ k) (hcr : c.rival = q)
    (ho : q.owner ≠ r.owner) :
    let t := (w.defer h r start [c] origin).1.st
    let tasks := (w.defer h r start [c] origin).2
    t.arb = w.st.arb ∧ t.record? k = some q
      ∧ ((w.st.placedAgain t h r start (plus q.occ.endLt w.st.arb.guard) ∧ tasks = [])
        ∨ (t.record? h = some r ∧ tasks = [.ended h r.occ.k (.denied false)])) := by
  intro t tasks
  obtain ⟨placed, outcome⟩ := defer_cases w h r start c origin hr
  refine ⟨placed.arb, (placed.records k (Ne.symm hne)).trans hk, ?_⟩
  have guardedEnd : w.st.guardedEnd r.owner r.occ.profile c.rival = plus q.occ.endLt w.st.arb.guard := by
    simp [State.guardedEnd, State.guardTo, hcr, Ne.symm ho]
  rcases outcome with denied | ⟨no_task, at', stands, found⟩
  · exact .inr denied
  · rw [guardedEnd] at found
    exact .inl ⟨placedAgain_of_search stands found placed.records rfl (by rw [placed.arb]) fun hb _ => hb, no_task⟩

/-- The whole arbitration with one rival, read off its outcome: the tasks are those of the outcome, so is the state but for
the token, which passes where it decided. -/
theorem arbitrate_one_reads (w : Work) (h k : Nat) (r q : Record) (origin : Origin) (start : LocalTime)
    (hn : r.occ.nominal = some start)
    (alone : w.st.conflictSet r.owner r.occ.profile r.occ.remaining start = [(k, q)])
    (closed : (w.st.contestOf h r (k, q)).isOpen = false)
    (arb : (w.outcome h r start origin (w.st.contestOf h r (k, q))).1.st.arb = w.st.arb) :
    let c := w.st.contestOf h r (k, q)
    let d := w.outcome h r start origin c
    let t := (w.arbitrate h r origin).1.st
    (w.arbitrate h r origin).2 = d.2
      ∧ (∀ P : State → Prop, (∀ u cls holder, P u → P (u.passToken cls holder)) → P d.1.st → P t)
      ∧ (c.decided ≠ .token → t = d.1.st)
      ∧ ∀ x, t.token x
        = if x = w.st.classOf r.occ.level ∧ c.decided = .token then (w.st.token x).other else w.st.token x := by
  intro c d t
  have whole := arbitrate_one w h k r q origin start hn alone closed
  have stays : ∀ x, d.1.st.token x = w.st.token x := fun x => token_congr arb x
  by_cases hd : c.decided = .token
  · have ht : t = d.1.st.passToken (w.st.classOf r.occ.level) (w.st.token (w.st.classOf r.occ.level)) := by
      simp only [t, whole, c, d, hd, beq_self_eq_true, if_true]
    refine ⟨by rw [whole], fun P pass hP => ht ▸ pass _ _ _ hP, fun hn => absurd hd hn, fun x => ?_⟩
    rw [ht, token_passToken _ _ _ _ (classOf_lt _ _), stays]
    by_cases hx : x = w.st.classOf r.occ.level <;> simp [hx, hd]
  · have ht : t = d.1.st := by
      simp only [t, whole, c, d, beq_iff_eq, if_neg hd]
    exact ⟨by rw [whole], fun P _ hP => ht ▸ hP, fun _ => ht, fun x => by rw [ht, stays]; simp [hd]⟩

end Sys2Proof.Machine
end

section
namespace Sys2Proof.Machine

/-! ### An ACTIVE rival (R67, R78, R79, R95) -/

/-- The contest with the ACTIVE window: won by class 0 of the other owner alone, and never by the token (R67). -/
theorem contestOf_active (s : State) (h k : Nat) (r q : Record) (ha : q.occ.state = .active) :
    ((s.contestOf h r (k, q)).won = true ↔ r.occ.level < s.arb.t1 ∧ r.owner ≠ q.owner)
      ∧ (s.contestOf h r (k, q)).decided ≠ .token := by
  have step := beats_active s (s.token (s.classOf r.occ.level)) (arrivalOf (h, r)) k q ha
  have won : (s.contestOf h r (k, q)).won = _ := congrArg Prod.fst step
  have decided : (s.contestOf h r (k, q)).decided = .active := congrArg Prod.snd step
  rw [won, decided]
  refine ⟨?_, by decide⟩
  rw [← classOf_eq_zero]
  simp [arrivalOf]

theorem postWindowEnd_keeps (s : State) (h : Nat) (reason : Reason) (early cut suspended : Bool) :
    (s.postWindowEnd h reason early cut suspended).arb = s.arb
      ∧ ∀ k, (s.postWindowEnd h reason early cut suspended).record? k = s.record? k := by
  unfold State.postWindowEnd
  split
  · exact ⟨rfl, fun _ => rfl⟩
  · exact ⟨rfl, fun _ => rfl⟩

theorem placeRemainder_onlyPlaced (s t : State) (h : Nat) (r : Record) (low latest : LocalTime)
    (hr : s.record? h = some r) (ht : s.placeRemainder h r low latest = some t) : OnlyPlaced s t h r.owner := by
  unfold State.placeRemainder at ht
  split at ht
  · cases ht
  · rename_i at' _
    cases ht
    have suspended := OnlyPlaced.updateOcc s h r.owner
      (fun x => { x with state := .suspended, placed := at', suspensions := x.suspensions + 1 })
    refine (suspended.trans (OnlyPlaced.post _ h _ _ _ _ _ _)).trans (OnlyPlaced.setNotice _ h
      { r with occ := { r.occ with state := .suspended, placed := at', suspensions := r.occ.suspensions + 1 } } _ ?_ rfl)
    rw [record?_post, record?_updateOcc, if_pos rfl, hr]
    rfl

/-- A cut leaves policy and tokens, and every other record, whether it ends the window or suspends it (R79). -/
theorem takeCut_keeps (s : State) (h : Nat) (cut : LocalTime) :
    (s.takeCut h cut).1.arb = s.arb ∧ ∀ k, k ≠ h → (s.takeCut h cut).1.record? k = s.record? k := by
  have parts : (s.endPart h cut).arb = s.arb ∧ ∀ k, k ≠ h → (s.endPart h cut).record? k = s.record? k :=
    ⟨by simp [State.endPart], fun k hk => by rw [record?_endPart, if_neg hk]⟩
  have ends : ∀ reason early c suspended,
      ((s.endPart h cut).postWindowEnd h reason early c suspended).arb = s.arb
        ∧ ∀ k, k ≠ h → ((s.endPart h cut).postWindowEnd h reason early c suspended).record? k = s.record? k :=
    fun reason early c suspended =>
      have posted := postWindowEnd_keeps (s.endPart h cut) h reason early c suspended
      ⟨posted.1.trans parts.1, fun k hk => (posted.2 k).trans (parts.2 k hk)⟩
  unfold State.takeCut
  dsimp only
  split
  · exact parts
  · rename_i r hr
    split
    · exact ends _ _ _ _
    · split
      · split
        · rename_i t ht
          have placed := placeRemainder_onlyPlaced _ t h r _ _ hr ht
          exact ⟨placed.arb.trans parts.1, fun k hk => (placed.records k hk).trans (parts.2 k hk)⟩
        · exact ends _ _ _ _
      · exact ends _ _ _ _

theorem cutAtOnce_keeps (s : State) (h : Nat) :
    (s.cutAtOnce h).1.arb = s.arb ∧ ∀ k, k ≠ h → (s.cutAtOnce h).1.record? k = s.record? k := by
  unfold State.cutAtOnce
  split
  · exact ⟨rfl, fun _ _ => rfl⟩
  · split
    · exact takeCut_keeps s h s.tb.lt
    · exact ⟨rfl, fun _ _ => rfl⟩

/-- The winner over the ACTIVE window stands at its nominal start, and the window is marked for its cut (R72, R78). A cut
for later waits; one at LT that ends the window is taken at once (R79, R95). -/
theorem grant_cuts (w : Work) (h k : Nat) (r q : Record) (start : LocalTime) (c : Contest) (origin : Origin)
    (hr : w.st.record? h = some r) (hk : w.st.record? k = some q) (hne : h ≠ k) (hch : c.handle = k) (hcr : c.rival = q)
    (ha : q.occ.state = .active) (ho : r.owner ≠ q.owner) :
    let t := (w.grant h r start [c] false origin).1.st
    let tasks := (w.grant h r start [c] false origin).2
    let now := w.st.tb.lt
    let marked := q.cutFor now w.st.arb.guard start r.occ.remaining
    t.arb = w.st.arb ∧ t.standsAt h r start 0
      ∧ (marked.cutAt ≠ some now → t.record? k = some { q with occ := marked } ∧ t.wc = w.st.wc ∧ tasks = [])
      ∧ (marked.cutAt = some now → q.occ.resumable = false ∨ 3 ≤ q.occ.suspensions →
          ticksTo q.occ.placed now < q.occ.remaining →
          t.record? k = some (Record.endedAt { q with occ := marked } now)
            ∧ t.wc = { w.st.wc with rxEn := false, txEn := false, lastEnd := some now }
            ∧ t.port q.owner.port = (w.st.port q.owner.port).push ⟨.windowEnd, k, .cut,
                windowEndFlags false true false marked, sat16 ((q.occ.served + ticksTo q.occ.placed now) / 16), now⟩
            ∧ tasks = [.ended k q.occ.k .cut]) := by
  intro t tasks now marked
  subst hch hcr
  obtain ⟨stands, granted⟩ := grantAt_standsAt w.st h r start 0 hr
  obtain ⟨ht, htasks⟩ := grant_active w h r start c origin ha
  generalize w.st.grantAt h start 0 = u at *
  obtain ⟨cut, schedules⟩ := record?_scheduleCut u c.handle c.rival start r.occ.remaining
    ((granted.records c.handle (Ne.symm hne)).trans hk)
  generalize u.scheduleCut c.handle c.rival start r.occ.remaining = v at *
  have scheduled := schedules r.owner
  have lt : v.tb.lt = now := congrArg Timebase.lt (scheduled.tb.trans granted.tb)
  have wc : v.wc = w.st.wc := scheduled.wc.trans granted.wc
  have mark : v.record? c.handle = some { c.rival with occ := marked } := by rw [cut, granted.tb, granted.arb]
  obtain ⟨arb, others⟩ := cutAtOnce_keeps v c.handle
  simp only [t, tasks, ht, htasks]
  refine ⟨arb.trans (scheduled.arb.trans granted.arb), ?_, fun later => ?_, fun atOnce final short => ?_⟩
  · obtain ⟨notice, stands⟩ := stands
    exact ⟨notice, ((others h hne).trans (scheduled.records h hne)).trans stands⟩
  · rw [cutAtOnce_waits v c.handle _ mark (by rw [lt]; exact later)]
    exact ⟨mark, wc, rfl⟩
  · have apart : c.rival.owner.port ≠ r.owner.port := fun same => ho (Owner.port_injective same).symm
    have port : v.port c.rival.owner.port = w.st.port c.rival.owner.port :=
      (scheduled.ports _ apart).trans (granted.ports _ apart)
    rw [cutAtOnce_ends v c.handle _ mark ha (by rw [lt]; exact atOnce) final (by rw [lt]; exact short), lt]
    refine ⟨?_, ?_, ?_, rfl⟩
    · rw [record?_post, record?_endPart, if_pos rfl, mark]
      rfl
    · rw [post_wc, endPart_wc, wc]
    · rw [port_post, if_pos rfl, endPart_port, endPart_tb, port, lt]
      rfl

/-! ### The two arbitrations of O27 -/

section
variable (w : Work) (h k : Nat) (r q : Record) (origin : Origin) (start : LocalTime)

theorem record?_of_conflictSet (s : State) (o : Owner) (profile len : Nat)
    (alone : s.conflictSet o profile len start = [(k, q)]) : s.record? k = some q :=
  ((mem_conflictSet s o profile len start k q).mp (by simp [alone])).1.1

/-- An arrival whose one rival is a GRANTED window of the other owner, neither a call burst. -/
theorem arbitrate_granted_rival (first : LocalTime) (hr : w.st.record? h = some r) (hne : h ≠ k)
    (hn : r.occ.nominal = some start) (hq : q.occ.nominal = some first)
    (alone : w.st.conflictSet r.owner r.occ.profile r.occ.remaining start = [(k, q)]) (ho : q.owner ≠ r.owner)
    (hg : q.occ.state = .granted) (hrc : r.kind.isCall = false) (hqc : q.kind.isCall = false) :
    let cls := fun (x : Record) => w.st.classOf x.occ.level
    let t := (w.arbitrate h r origin).1.st
    let tasks := (w.arbitrate h r origin).2
    (∀ c, t.token c = if c = cls r ∧ cls r = cls q then (w.st.token c).other else w.st.token c)
      ∧ (cls r < cls q ∨ (cls r = cls q ∧ w.st.token (cls r) = r.owner) →
          t.standsAt h r start 0
          ∧ ((w.st.placedAgain t k q first (plus start (r.occ.remaining + w.st.arb.guard)) ∧ tasks = [])
            ∨ ((∃ y, t.record? k = some y ∧ y.occ.state = .withdrawn) ∧ tasks = [.ended k q.occ.k (.denied true)])))
      ∧ (cls q < cls r ∨ (cls r = cls q ∧ w.st.token (cls r) = q.owner) →
          t.record? k = some q
          ∧ ((w.st.placedAgain t h r start (plus q.occ.endLt w.st.arb.guard) ∧ tasks = [])
            ∨ (t.record? h = some r ∧ tasks = [.ended h r.occ.k (.denied false)]))) := by
  intro cls t tasks
  have hk := record?_of_conflictSet k q start w.st _ _ _ alone
  obtain ⟨wins, loses, byToken⟩ := contestOf_other_owner w.st h k r q ho hg
  have closed := contestOf_closed w.st h k r q (.inl ⟨hrc, hqc⟩)
  have won := grant_displaces w h k r q start first (w.st.contestOf h r (k, q)) origin hr hk hne rfl rfl hg ho hq
  have lost := defer_after_rival w h k r q start (w.st.contestOf h r (k, q)) origin hr hk hne rfl ho
  have arb : (w.outcome h r start origin (w.st.contestOf h r (k, q))).1.st.arb = w.st.arb := by
    unfold Work.outcome
    split
    · exact won.1
    · exact lost.1
  obtain ⟨htasks, reads, -, token⟩ := arbitrate_one_reads w h k r q origin start hn alone closed arb
  refine ⟨fun c => ?_, fun hw => ?_, fun hl => ?_⟩
  · rw [token c]
    exact ite_congr (propext (and_congr_right fun _ => byToken)) (fun _ => rfl) (fun _ => rfl)
  · have granted : w.outcome h r start origin (w.st.contestOf h r (k, q))
        = w.grant h r start [w.st.contestOf h r (k, q)] false origin := if_pos (wins hw)
    rw [granted] at reads htasks
    have result := reads (fun u => u.standsAt h r start 0
      ∧ ((w.st.placedAgain u k q first (plus start (r.occ.remaining + w.st.arb.guard)) ∧ _ = _)
        ∨ ((∃ y, u.record? k = some y ∧ y.occ.state = .withdrawn) ∧ _ = _))) (fun _ _ _ hu => hu) won.2
    rw [← htasks] at result
    exact result
  · have deferred : w.outcome h r start origin (w.st.contestOf h r (k, q))
        = w.defer h r start [w.st.contestOf h r (k, q)] origin := if_neg (by rw [loses hl]; decide)
    rw [deferred] at reads htasks
    have result := reads (fun u => u.record? k = some q
      ∧ ((w.st.placedAgain u h r start (plus q.occ.endLt w.st.arb.guard) ∧ _ = _)
        ∨ (u.record? h = some r ∧ _ = _))) (fun _ _ _ hu => hu) lost.2
    rw [← htasks] at result
    exact result

/-- An arrival whose one rival is the ACTIVE window. -/
theorem arbitrate_active_rival (hr : w.st.record? h = some r) (hne : h ≠ k) (hn : r.occ.nominal = some start)
    (alone : w.st.conflictSet r.owner r.occ.profile r.occ.remaining start = [(k, q)]) (ha : q.occ.state = .active) :
    let now := w.st.tb.lt
    let t := (w.arbitrate h r origin).1.st
    let tasks := (w.arbitrate h r origin).2
    let wins := r.occ.level < w.st.arb.t1 ∧ r.owner ≠ q.owner
    let marked := q.cutFor now w.st.arb.guard start r.occ.remaining
    t.arb = w.st.arb
      ∧ (wins → t.standsAt h r start 0
          ∧ (marked.cutAt ≠ some now → t.record? k = some { q with occ := marked } ∧ t.wc = w.st.wc ∧ tasks = [])
          ∧ (marked.cutAt = some now → q.occ.resumable = false ∨ 3 ≤ q.occ.suspensions →
              ticksTo q.occ.placed now < q.occ.remaining →
              t.record? k = some (Record.endedAt { q with occ := marked } now)
                ∧ t.wc = { w.st.wc with rxEn := false, txEn := false, lastEnd := some now }
                ∧ t.port q.owner.port = (w.st.port q.owner.port).push ⟨.windowEnd, k, .cut,
                    windowEndFlags false true false marked, sat16 ((q.occ.served + ticksTo q.occ.placed now) / 16), now⟩
                ∧ tasks = [.ended k q.occ.k .cut]))
      ∧ (¬wins → OnlyPlaced w.st t h r.owner
          ∧ ((t.record? h = some r ∧ tasks = [.ended h r.occ.k (.denied false)])
            ∨ (tasks = [] ∧ ∃ at', t.standsAt h r at' (ticksTo start at')
                ∧ w.st.search r.owner r.occ.profile r.occ.remaining
                    (laterOf start (w.st.guardedEnd r.owner r.occ.profile q)) (plus start r.occ.slack) = some at'))) := by
  intro now t tasks wins marked
  have hk := record?_of_conflictSet k q start w.st _ _ _ alone
  obtain ⟨won, decided⟩ := contestOf_active w.st h k r q ha
  have closed := contestOf_closed w.st h k r q (.inr ha)
  have granted := grant_cuts w h k r q start (w.st.contestOf h r (k, q)) origin hr hk hne rfl rfl ha
  have lost := defer_cases w h r start (w.st.contestOf h r (k, q)) origin hr
  have arb : (w.outcome h r start origin (w.st.contestOf h r (k, q))).1.st.arb = w.st.arb := by
    unfold Work.outcome
    split
    · exact (granted (won.mp ‹_›).2).1
    · exact lost.1.arb
  obtain ⟨htasks, -, reads, -⟩ := arbitrate_one_reads w h k r q origin start hn alone closed arb
  have ht : t = _ := reads decided
  refine ⟨(congrArg State.arb ht).trans arb, fun hw => ?_, fun hl => ?_⟩
  · have isGranted : w.outcome h r start origin (w.st.contestOf h r (k, q))
        = w.grant h r start [w.st.contestOf h r (k, q)] false origin := if_pos (won.mpr hw)
    rw [isGranted] at ht htasks
    simp only [tasks, ht, htasks]
    exact (granted hw.2).2
  · have isDeferred : w.outcome h r start origin (w.st.contestOf h r (k, q))
        = w.defer h r start [w.st.contestOf h r (k, q)] origin := if_neg (fun h => hl (won.mp h))
    rw [isDeferred] at ht htasks
    simp only [tasks, ht, htasks]
    exact lost

end

/-- Settles O27: the contest decides between the two outcomes of an arrival, each of which has its lemma above. -/
theorem contestOfTwoOwnersIsDecided : Obligations.ContestOfTwoOwnersIsDecided := by
  refine ⟨fun w h k r q origin start first hr hne hn hq alone ho hg hrc hqc =>
      arbitrate_granted_rival w h k r q origin start first hr hne hn hq alone ho hg hrc hqc,
    fun w h k r q origin start hr hne hn alone ha hguard => ?_⟩
  obtain ⟨arb, wins, loses⟩ := arbitrate_active_rival w h k r q origin start hr hne hn alone ha
  refine ⟨arb, fun early => ?_, wins, fun hl => ?_⟩
  · rw [if_pos early]
    exact ticksTo_less_self start w.st.arb.guard (by omega)
  · obtain ⟨placed, outcome⟩ := loses hl
    have hk := record?_of_conflictSet k q start w.st _ _ _ alone
    refine ⟨(placed.records k (Ne.symm hne)).trans hk, placed.wc, ?_⟩
    rcases outcome with denied | ⟨no_task, at', ⟨notice, stands⟩, found⟩
    · exact .inl denied
    · obtain ⟨clear, inTime⟩ := search_sound _ _ _ _ _ _ _ found
      refine .inr ⟨no_task, at', notice, stands, inTime, fun hb hlen hslack => ?_, fun i y hi hy hy' => ?_⟩
      · have late := search_not_before w.st _ _ _ _ _ _ _ hb hlen hslack found
        rwa [State.guardedEnd, guardTo_eq] at late
      · rw [conflicts_congr (congrArg Arbiter.guard placed.arb)]
        rw [placed.records i hi] at hy
        exact clear i y hy hy'

end Sys2Proof.Machine
end

section
namespace Sys2Proof.Machine

/-! ### CUT_TIME against a stale plan (R79, R80, R86) -/

/-- A resumable ACTIVE window, cut at 100 of its 1,000 ticks, with room for its remainder from 50,000 on. -/
def cutWindow : Record :=
  { owner := .a, kind := .meas, binding := .byIndex 0, start := ⟨0, 0, 0⟩, length := 1000, level := 5, period := none
    count := some 1, remaining := some 0, mask := 65535, slack := 0, resumable := true, profile := 0, link := none
    served := 0, lost := 0
    occ :=
      { k := 0, state := .active, entry := 0, nominal := some 0, advance := 0, placed := 0, shift := 0
        remaining := 1000, served := 0, suspensions := 0, level := 5, slack := 0, profile := 0, resumable := true
        taken := true, firstRise := some 0, cutAt := some 100, shortfall := false, resumeFloor := some 50000
        deadline := some 100000, lateLoad := false, widened := false, notice := none } }

/-- Its state at the cut, where WC's next window names the ACTIVE window itself: the same handle and index, fixed for the very
start that the remainder will take, under the W_pending and G in force, but with a planned rise already reached. -/
def stalePlan : State :=
  { State.reset.setRecord 0 (some cutWindow) with
    tb := { State.reset.tb with lt := 100 }
    wc := { State.reset.wc with rxEn := true, next := some ⟨0, 0, .owed, 100, 50000, 0, 2400⟩ } }

/-- The state a step leaves a record's window in. -/
def stateAfter (x : Host.Outcome State Fault Refusal) (h : Nat) : Option OccState :=
  match x with
  | .next t => (t.record? h).map (·.occ.state)
  | .fault _ => none
  | .refused _ => none

/-- WC keeps the stale plan for the SUSPENDED remainder, finds its rise reached, and activates it in the same step. -/
theorem cutTime_stalePlan_rises : stateAfter (exec .cutTime stalePlan) 0 = some .active := by decide

/-- Refutes O38: its second clause leaves WC's next window free, and in `stalePlan` that plan names the ACTIVE window with a
rise already reached, so the remainder is ACTIVE again at the end of the step and not SUSPENDED. Activation clears the next
window and R86 never chooses the ACTIVE one, so the plan is none that a run of the part holds: the clause lacks that
hypothesis. -/
theorem not_cutTimeSuspendsOrEnds : ¬Obligations.CutTimeSuspendsOrEnds := by
  intro claim
  obtain ⟨-, suspends⟩ := claim stalePlan .a 0 cutWindow 100 (by decide) rfl rfl rfl rfl (by decide) (by decide)
  obtain ⟨t, step, suspended, -⟩ := suspends rfl (by decide) (by decide) (by decide) (by decide) rfl
  have rises := cutTime_stalePlan_rises
  rw [step] at rises
  simp [stateAfter, suspended] at rises

end Sys2Proof.Machine
end

/-! ## Message exchanges -/

section
namespace Sys2Proof.Machine

/-! ### Composing frames -/

/-- Two rewritings of the same parts are one. -/
theorem sameExcept_trans {s t u : State} {parts : List Block} (a : s.sameExcept t parts) (b : t.sameExcept u parts) :
    s.sameExcept u parts := by
  obtain ⟨tb, ct, rt, arb, wc, su, hu, sc, ports, resetN, free, pending⟩ := a
  obtain ⟨tb', ct', rt', arb', wc', su', hu', sc', ports', resetN', free', pending'⟩ := b
  exact ⟨fun h => (tb' h).trans (tb h), fun h => (ct' h).trans (ct h), fun h => (rt' h).trans (rt h),
    fun h => (arb' h).trans (arb h), fun h => (wc' h).trans (wc h), fun h => (su' h).trans (su h),
    fun h => (hu' h).trans (hu h), fun h => (sc' h).trans (sc h), fun p h => (ports' p h).trans (ports p h),
    fun h => (resetN' h).trans (resetN h), fun h => (free' h).trans (free h),
    fun h => (pending' h).trans (pending h)⟩

/-- A frame that lists more parts says less. -/
theorem sameExcept_mono {s t : State} {parts more : List Block} (sub : ∀ b ∈ parts, b ∈ more)
    (h : s.sameExcept t parts) : s.sameExcept t more := by
  obtain ⟨tb, ct, rt, arb, wc, su, hu, sc, ports, resetN, free, pending⟩ := h
  have outside : ∀ b, b ∉ more → b ∉ parts := fun b hb hm => hb (sub b hm)
  exact ⟨fun h => tb (outside _ h), fun h => ct (outside _ h), fun h => rt (outside _ h),
    fun h => arb (outside _ h), fun h => wc (outside _ h), fun h => su (outside _ h), fun h => hu (outside _ h),
    fun h => sc (outside _ h), fun p h => ports p (outside _ h), fun h => resetN (outside _ h),
    fun h => free (outside _ h), fun h => pending (outside _ h)⟩

/-- Rewriting RT, WC and SU leaves every other part. -/
theorem sameExcept_wc_rt_su (s : State) (rt : ReservationTable) (wc : WindowController) (su : SessionUnit) :
    s.sameExcept { s with rt := rt, wc := wc, su := su } [.wc, .rt, .su] :=
  ⟨fun _ => rfl, fun _ => rfl, by simp, fun _ => rfl, by simp, by simp, fun _ => rfl, fun _ => rfl,
    fun _ _ => rfl, fun _ => rfl, fun _ => rfl, fun _ => rfl⟩

/-- Rewriting SU alone leaves every other part. -/
theorem sameExcept_su (s : State) (su : SessionUnit) : s.sameExcept { s with su := su } [.su] :=
  ⟨fun _ => rfl, fun _ => rfl, fun _ => rfl, fun _ => rfl, fun _ => rfl, by simp, fun _ => rfl, fun _ => rfl,
    fun _ _ => rfl, fun _ => rfl, fun _ => rfl, fun _ => rfl⟩

/-- Rewriting RT alone leaves every other part. -/
theorem sameExcept_rt (s : State) (rt : ReservationTable) : s.sameExcept { s with rt := rt } [.rt] :=
  ⟨fun _ => rfl, fun _ => rfl, by simp, fun _ => rfl, fun _ => rfl, fun _ => rfl, fun _ => rfl, fun _ => rfl,
    fun _ _ => rfl, fun _ => rfl, fun _ => rfl, fun _ => rfl⟩

theorem exchange?_congr (s t : State) (h : t.su = s.su) (i : Nat) : t.exchange? i = s.exchange? i := by
  unfold State.exchange?
  rw [h]

/-- An ACTIVE window that stays in its record is there still at the end of the step. -/
theorem quiet_of_active_kept (s u : State)
    (kept : ∀ h r, s.record? h = some r → r.occ.state = .active → u.record? h = some r) :
    s.active? = none ∨ u.active? ≠ none := by
  cases ha : s.active? with
  | none => exact .inl rfl
  | some w =>
    obtain ⟨hr, active⟩ := active?_some s w.1 w.2 ha
    exact .inr fun gone => (active?_eq_none u).mp gone w.1 w.2 (kept w.1 w.2 hr active) active

/-- A command of a SUB port is its owner's (section 3.4). -/
theorem withOwnerReply_port (o : Owner) (s : State) (body : Owner → Reply) : withOwnerReply o.port s body = body o := by
  simp only [withOwnerReply, Owner.owner?_port]

/-- An accepted plan command whose effect ends no ACTIVE window: its port is answered, its effect stays, and beside it the
timeline is only replanned. The effect itself may have replanned WC already. -/
theorem planCommand_replans {s u : State} {p : Port} {n : Nat} {i : Instr} {body : State → Reply} {rs : List Byte}
    {parts : List Block} (hx : s.executes p n i) (hb : body s = some (u, .ok, rs)) (port : u.port p = s.port p)
    (quiet : s.active? = none ∨ u.active? ≠ none) (same : s.sameExcept u (.wc :: parts))
    (plan : u.wc = { s.wc with next := u.wc.next, load := u.wc.load })
    (load : u.wc.load.map (fun l => { l with serves := none }) = s.wc.load.map (fun l => { l with serves := none }))
    (sc : u.sc = s.sc) :
    ∃ t, s.planCommand p i body = .next t ∧ t.rt = u.rt ∧ t.su = u.su ∧ t.port p = (s.port p).answered n .ok rs
      ∧ s.replannedExcept t (parts ++ [.port p]) := by
  let v := u.setPort p ((u.port p).answered n .ok rs)
  have sameWindows : v.active? = u.active? := active?_congr u v rfl
  have quiet' : s.active? = none ∨ v.active? ≠ none := by rwa [sameWindows]
  obtain ⟨⟨-, -, rt, -, -, su, -, -, ports, -⟩, -⟩ := settle_quiet s v quiet'
  have framed : ({ s with wc := u.wc } : State).sameExcept v (parts ++ [.port p]) := by
    refine sameExcept_setPort p _ ?_
    obtain ⟨tb, ct, rt, arb, -, su, hu, sc, ports, resetN, free, pending⟩ := same
    simp only [List.mem_cons, not_or] at *
    exact ⟨fun h => tb ⟨by simp, h⟩, fun h => ct ⟨by simp, h⟩, fun h => rt ⟨by simp, h⟩, fun h => arb ⟨by simp, h⟩,
      fun _ => rfl, fun h => su ⟨by simp, h⟩, fun h => hu ⟨by simp, h⟩, fun h => sc ⟨by simp, h⟩,
      fun q h => ports q ⟨by simp, h⟩, fun h => resetN ⟨by simp, h⟩, fun h => free ⟨by simp, h⟩,
      fun h => pending ⟨by simp, h⟩⟩
  obtain ⟨⟨tb', ct', rt', arb', -, su', hu', -, ports', resetN', free', pending'⟩, plan', load', sleep'⟩ :=
    settle_replans { s with wc := u.wc } v (parts ++ [.port p]) quiet' framed rfl sc
  refine ⟨State.settle s v, planCommand_accepts hx hb (port ▸ hx.2), rt (by simp), su (by simp), ?_, ?_⟩
  · rw [ports p (by simp), port_setPort, if_pos rfl, port]
  · exact ⟨⟨tb', ct', rt', arb', by simp, su', hu', by simp, ports', resetN', free', pending'⟩,
      plan'.trans (congrArg (fun w : WindowController =>
        { w with next := (State.settle s v).wc.next, load := (State.settle s v).wc.load }) plan),
      load'.trans load, sleep'⟩

end Sys2Proof.Machine
end

section
namespace Sys2Proof.Machine

/-! ### The placement search (R122, R123) -/

section
variable (s : State) (o : Owner) (serving : Nat) (a : ExchangeParams) (ref : LocalTime)

/-- Candidate j resolved, but to no usable placement (R123). -/
def State.passesOver (j : Nat) : Prop :=
  s.resolveCandidate o serving (candidateStart a j) ref a.steps = .unusable
    ∨ ∃ entry ps, s.resolveCandidate o serving (candidateStart a j) ref a.steps = .on entry ps
        ∧ s.stepsUsable o a.level ps = false

variable (left j : Nat)

theorem searchCandidates_untimed (h : s.resolveCandidate o serving (candidateStart a j) ref a.steps = .untimed) :
    s.searchCandidates o serving a ref (left + 1) j = .notTimed := by
  simp only [State.searchCandidates, h]

theorem searchCandidates_passes (h : s.passesOver o serving a ref j) :
    s.searchCandidates o serving a ref (left + 1) j = s.searchCandidates o serving a ref left (j + 1) := by
  rcases h with h | ⟨entry, ps, h, useless⟩
  · simp only [State.searchCandidates, h]
  · simp only [State.searchCandidates, h, useless]
    rfl

theorem searchCandidates_usable (entry : Nat) (ps : List PlacedStep)
    (h : s.resolveCandidate o serving (candidateStart a j) ref a.steps = .on entry ps)
    (usable : s.stepsUsable o a.level ps = true) :
    s.searchCandidates o serving a ref (left + 1) j = .chosen j entry ps := by
  simp only [State.searchCandidates, h, usable, if_true]

/-- A candidate is untimed, passed over, or usable. -/
theorem candidate_cases :
    s.resolveCandidate o serving (candidateStart a j) ref a.steps = .untimed ∨ s.passesOver o serving a ref j
      ∨ ∃ entry ps, s.resolveCandidate o serving (candidateStart a j) ref a.steps = .on entry ps
          ∧ s.stepsUsable o a.level ps = true := by
  cases h : s.resolveCandidate o serving (candidateStart a j) ref a.steps with
  | untimed => exact .inl rfl
  | unusable => exact .inr (.inl (.inl h))
  | on entry ps =>
    cases hu : s.stepsUsable o a.level ps with
    | true => exact .inr (.inr ⟨entry, ps, rfl, hu⟩)
    | false => exact .inr (.inl (.inr ⟨entry, ps, h, hu⟩))

/-- R123: the candidate chosen is the first usable one; every candidate before it was passed over. -/
theorem searchCandidates_chosen (first entry : Nat) (ps : List PlacedStep)
    (h : s.searchCandidates o serving a ref left first = .chosen j entry ps) :
    (first ≤ j ∧ j < first + left)
      ∧ (s.resolveCandidate o serving (candidateStart a j) ref a.steps = .on entry ps
        ∧ s.stepsUsable o a.level ps = true)
      ∧ ∀ i, first ≤ i → i < j → s.passesOver o serving a ref i := by
  induction left generalizing first with
  | zero => cases h
  | succ left ih =>
    rcases candidate_cases s o serving a ref first with untimed | passed | ⟨e, qs, placed, usable⟩
    · rw [searchCandidates_untimed s o serving a ref left first untimed] at h
      cases h
    · rw [searchCandidates_passes s o serving a ref left first passed] at h
      obtain ⟨range, chosen, earlier⟩ := ih (first + 1) h
      refine ⟨by omega, chosen, fun i hi hij => ?_⟩
      rcases Nat.eq_or_lt_of_le hi with rfl | later
      · exact passed
      · exact earlier i later hij
    · rw [searchCandidates_usable s o serving a ref left first e qs placed usable] at h
      cases h
      exact ⟨by omega, ⟨placed, usable⟩, fun i hi hij => absurd hij (by omega)⟩

end

/-- The three conditions of R123. -/
theorem stepsUsable_iff (s : State) (o : Owner) (level : Nat) (ps : List PlacedStep) :
    s.stepsUsable o level ps = true ↔ (∀ x ∈ ps, s.farEnough x.lt = true) ∧ s.stepsInOrder ps = true
      ∧ ∀ y ∈ ps.zip (freeIndexes s.rt.records), s.stepTrial o level y = true := by
  simp only [State.stepsUsable, Bool.and_eq_true, List.all_eq_true, and_assoc]

/-- Settles O44, by induction on the candidates left. -/
theorem searchChoosesTheFirstUsableCandidate : Obligations.SearchChoosesTheFirstUsableCandidate := by
  intro s o sv a ref left first j entry ps h
  obtain ⟨⟨low, high⟩, ⟨placed, usable⟩, passed⟩ := searchCandidates_chosen s o sv a ref left j first entry ps h
  obtain ⟨far, order, trials⟩ := (stepsUsable_iff s o a.level ps).mp usable
  exact ⟨low, high, placed, far, order, trials, passed⟩

end Sys2Proof.Machine
end

section
namespace Sys2Proof.Machine

/-! ### The steps of an abandoned exchange (R127) -/

/-- An exchange that has forgotten a handle. -/
def Exchange.forgetting (x : Exchange) (h : Nat) : Exchange :=
  { x with steps := x.steps.map (fun y => if y.handle == some h then { y with handle := none } else y) }

/-- A step's record ends: its handle is free and its exchange forgets it. -/
theorem removeRecord_step (s : State) (h i : Nat) (r : Record) (hr : s.record? h = some r)
    (link : r.link = some (.exchange i)) (binding : r.binding = .followsServing) :
    s.removeRecord h = (s.setRecord h none).updateExchange i (·.forgetting h) := by
  simp only [State.removeRecord, hr, State.dropLink, link, binding]
  rfl

/-- `t` is `s` with the records of some handles gone, and with exchange `i` rewritten. -/
structure StepsEnded (s t : State) (i : Nat) (gone : List Nat) : Prop where
  same : s.sameExcept t [.rt, .su]
  calls : t.su.calls = s.su.calls
  exchanges : ∀ k, k ≠ i → t.exchange? k = s.exchange? k
  records : ∀ h, t.record? h = if h ∈ gone then none else s.record? h

namespace StepsEnded

theorem refl (s : State) (i : Nat) : StepsEnded s s i [] :=
  ⟨sameExcept_refl s _, rfl, fun _ _ => rfl, fun _ => by simp⟩

theorem trans {s t u : State} {i : Nat} {gone more : List Nat} (a : StepsEnded s t i gone)
    (b : StepsEnded t u i more) : StepsEnded s u i (gone ++ more) where
  same := sameExcept_trans a.same b.same
  calls := b.calls.trans a.calls
  exchanges := fun k hk => (b.exchanges k hk).trans (a.exchanges k hk)
  records := fun h => by
    rw [b.records, a.records]
    grind

theorem setExchange (s : State) (i : Nat) (e : Option Exchange) : StepsEnded s (s.setExchange i e) i [] where
  same := sameExcept_mono (by simp) (sameExcept_su s _)
  calls := rfl
  exchanges := fun k hk => by simp [hk]
  records := fun _ => by simp [State.record?]

theorem updateExchange (s : State) (i : Nat) (g : Exchange → Exchange) : StepsEnded s (s.updateExchange i g) i [] := by
  unfold State.updateExchange
  split
  · exact setExchange s i _
  · exact refl s i

/-- The record of a handle emptied; one above 63 is empty already. -/
theorem setRecord_none (s : State) (h i : Nat) : StepsEnded s (s.setRecord h none) i [h] where
  same := sameExcept_mono (by simp) (sameExcept_rt s _)
  calls := rfl
  exchanges := fun _ _ => rfl
  records := fun k => by
    have above : ¬h < 64 → s.record? h = none := fun high =>
      Option.eq_none_iff_forall_ne_some.mpr fun r hr => high (record?_lt s h r hr)
    simp only [record?_setRecord, List.mem_singleton]
    grind

/-- The table of R127 for a step that is not ACTIVE: it ends CANCELLED, and its record is gone. -/
theorem endOtherStep (s : State) (h i : Nat) (idle : ∀ r, s.record? h = some r →
      (r.link = some (.exchange i) ∧ r.binding = .followsServing) ∧ r.occ.state ≠ .active) :
    StepsEnded s (s.endOtherStep h).1 i [h] := by
  cases hr : s.record? h with
  | none =>
    have unchanged : (s.endOtherStep h).1 = s := by simp only [State.endOtherStep, hr]
    rw [unchanged]
    exact { refl s i with records := fun k => by simp only [List.mem_singleton]; grind }
  | some r =>
    obtain ⟨⟨link, binding⟩, inactive⟩ := idle r hr
    have removed : (s.endOtherStep h).1 = s.removeRecord h := by simp [State.endOtherStep, hr, inactive]
    rw [removed, removeRecord_step s h i r hr link binding]
    exact (setRecord_none s h i).trans (updateExchange _ i _)

/-- Every step of a list ended, none of them ACTIVE. -/
theorem endSteps (s : State) (i : Nat) (l : List (Nat × Nat)) (cut : Bool) (idle : ∀ h ∈ l.map (·.2), ∀ r,
      s.record? h = some r → (r.link = some (.exchange i) ∧ r.binding = .followsServing) ∧ r.occ.state ≠ .active) :
    StepsEnded s (s.endSteps i none l cut).1 i (l.map (·.2)) := by
  induction l generalizing s cut with
  | nil => exact refl s i
  | cons x rest ih =>
    obtain ⟨j, h⟩ := x
    have first := (endOtherStep s h i (idle h (by simp))).trans
      (updateExchange _ i (fun x => x.endStep j (s.endOtherStep h).2))
    refine first.trans (ih _ _ fun k hk r hr => idle k (by simp [hk]) r ?_)
    rw [first.records] at hr
    grind

end StepsEnded

/-- The handles of the live steps are the handles of the steps. -/
theorem mem_liveSteps_handle (x : Exchange) (h : Nat) :
    h ∈ x.liveSteps.map (·.2) ↔ ∃ y ∈ x.steps, y.handle = some h := by
  simp only [Exchange.liveSteps, List.map_filterMap, List.mem_filterMap, Prod.exists, Option.map_map]
  constructor
  · rintro ⟨y, j, hy, hh⟩
    exact ⟨y, (List.mem_zipIdx' hy).2 ▸ List.getElem_mem _, by simpa using hh⟩
  · rintro ⟨y, hy, hh⟩
    obtain ⟨j, hj, rfl⟩ := List.getElem_of_mem hy
    exact ⟨_, j, List.mk_mem_zipIdx_iff_getElem?.mpr (List.getElem?_eq_getElem hj), by simp [hh]⟩

/-- R127 where no event is announced: every step ends and the record is free. -/
theorem abandon_silent (w : Work) (i failing : Nat) (reason : Reason) (inHand : Option Nat) (x : Exchange)
    (hx : w.st.exchange? i = some x) :
    (w.abandon i failing reason inHand false).st
      = (w.st.endSteps i inHand x.liveSteps false).1.setExchange i none := by
  simp [Work.abandon, hx]

/-! ### EXCHANGE CANCEL (R130) -/

section
variable (s : State) (o : Owner) (i : Nat) (x : Exchange)

theorem exec_exchangeCancel (p : Port) :
    exec (.exchangeCancel p i) s = s.planCommand p (.exchangeCancel p i) (fun t =>
      withOwnerReply p t (fun u => some (t.cancelExchange u i))) := rfl

theorem ownExchange_of_owner (hx : s.exchange? i = some x) (ho : x.owner = o) : s.ownExchange o i = .ok x := by
  have inTable : ¬3 < i := by have := exchange?_lt s i x hx; omega
  simp only [State.ownExchange, inTable, if_false, hx, ho, beq_self_eq_true, if_true]

theorem stepActive_iff :
    s.stepActive x = true ↔ ∃ h r, (∃ y ∈ x.steps, y.handle = some h) ∧ s.record? h = some r ∧ r.occ.state = .active := by
  simp only [← mem_liveSteps_handle, State.stepActive, List.any_eq_true, List.mem_map]
  constructor
  · rintro ⟨w, hw, active⟩
    cases hr : s.record? w.2 with
    | none => simp [hr] at active
    | some r => exact ⟨w.2, r, ⟨w, hw, rfl⟩, hr, by simpa [hr] using active⟩
  · rintro ⟨_, r, ⟨w, hw, rfl⟩, hr, active⟩
    exact ⟨w, hw, by simp [hr, active]⟩

theorem cancelExchange_idle (hx : s.exchange? i = some x) (ho : x.owner = o) (fresh : x.cancelPending = false)
    (idle : s.stepActive x = false) :
    s.cancelExchange o i
      = accept ((s.endSteps i none x.liveSteps false).1.setExchange i none) (bytesOfNat 1 0 ++ bytesOfNat 1 x.done) := by
  have abandoned := abandon_silent (Work.of s) i x.lowestNotDone .cancelled none x hx
  simp only [State.cancelExchange, ownExchange_of_owner s o i x hx ho, fresh, idle, abandoned]
  rfl

theorem cancelExchange_active (hx : s.exchange? i = some x) (ho : x.owner = o) (fresh : x.cancelPending = false)
    (active : s.stepActive x = true) :
    s.cancelExchange o i
      = accept (s.setExchange i (some { x with cancelPending := true })) (bytesOfNat 1 1 ++ bytesOfNat 1 x.done) := by
  simp only [State.cancelExchange, ownExchange_of_owner s o i x hx ho, fresh, active]
  rfl

end

/-- Settles O45: without an ACTIVE step the abandonment of R127 is silent, with one only the exchange changes. -/
theorem exchangeCancelAbandonsOrWaits : Obligations.ExchangeCancelAbandonsOrWaits := by
  intro s o n i x executes hx ho fresh live linked
  have inTable := exchange?_lt s i x hx
  refine ⟨fun idle => ?_, fun active => ?_⟩
  · have noneActive : s.stepActive x = false := Bool.eq_false_iff.mpr fun active =>
      have ⟨h, r, hl, hr, ha⟩ := (stepActive_iff s x).mp active
      idle h r hl hr ha
    have steps := (StepsEnded.endSteps s i x.liveSteps false fun h hl r hr =>
      have hl := (mem_liveSteps_handle x h).mp hl
      ⟨linked h r hl hr, idle h r hl hr⟩).trans (StepsEnded.setExchange _ i none)
    rw [List.append_nil] at steps
    have freed : ((s.endSteps i none x.liveSteps false).1.setExchange i none).exchange? i = none := by
      rw [exchange?_setExchange, if_pos ⟨rfl, inTable⟩]
    have cancelled := cancelExchange_idle s o i x hx ho fresh noneActive
    generalize (s.endSteps i none x.liveSteps false).1.setExchange i none = u at steps freed cancelled
    have records : ∀ h, u.record? h = if ∃ y ∈ x.steps, y.handle = some h then none else s.record? h := fun h => by
      rw [steps.records]
      exact ite_congr (propext (mem_liveSteps_handle x h)) (fun _ => rfl) (fun _ => rfl)
    obtain ⟨-, -, -, -, wc, -, -, sc, ports, -⟩ := steps.same
    have wc := wc (by simp)
    obtain ⟨t, step, rt, su, port, frame⟩ := planCommand_replans (parts := [.rt, .su]) executes
      (body := fun t => withOwnerReply o.port t (fun u => some (t.cancelExchange u i)))
      (u := u) (rs := bytesOfNat 1 0 ++ bytesOfNat 1 x.done)
      ((withOwnerReply_port o s _).trans (congrArg some cancelled)) (ports _ (by simp))
      (quiet_of_active_kept s u fun h r hr ha => by
        rw [records, if_neg fun hl => idle h r hl hr ha, hr])
      (sameExcept_mono (by simp) steps.same) (by rw [wc]) (by rw [wc]) (sc (by simp))
    refine ⟨t, (exec_exchangeCancel s i o.port).trans step, ?_, fun k hk => ?_, ?_, fun h hl => ?_, fun h hl => ?_,
      port, frame⟩
    · rw [exchange?_congr u t su, freed]
    · rw [exchange?_congr u t su, steps.exchanges k hk]
    · rw [su, steps.calls]
    · rw [record?_congr u t rt, records, if_pos hl]
    · rw [record?_congr u t rt, records, if_neg hl]
  · have cancelled := cancelExchange_active s o i x hx ho fresh ((stepActive_iff s x).mpr active)
    obtain ⟨t, step, rt, su, port, frame⟩ := planCommand_replans (parts := [.su]) executes
      (body := fun t => withOwnerReply o.port t (fun u => some (t.cancelExchange u i)))
      (u := s.setExchange i (some { x with cancelPending := true })) (rs := bytesOfNat 1 1 ++ bytesOfNat 1 x.done)
      ((withOwnerReply_port o s _).trans (congrArg some cancelled)) rfl
      (quiet_of_active_kept s _ fun h r hr _ => hr)
      (sameExcept_mono (by simp) (sameExcept_su s _)) rfl rfl rfl
    refine ⟨t, (exec_exchangeCancel s i o.port).trans step, ?_, fun k hk => ?_, ?_, port, frame⟩
    · rw [exchange?_congr _ t su, exchange?_setExchange, if_pos ⟨rfl, inTable⟩]
    · rw [exchange?_congr _ t su, exchange?_setExchange, if_neg fun h => hk h.1]
    · rw [su]
      rfl

end Sys2Proof.Machine
end

section
namespace Sys2Proof.Machine

/-! ### A window with no rival (R70, R71, R97) -/

/-- A table whose lowest absent index is known (R38, R120). -/
theorem lowestFree_eq {α : Type} {n : Nat} (v : Vector (Option α) n) (i : Nat) (hi : i < n) (free : (v[i]?).join = none)
    (below : ∀ k, k < i → (v[k]?).join ≠ none) : lowestFree v = some i := by
  cases h : lowestFree v with
  | none =>
    have absent : (none, i) ∈ v.toList.zipIdx := by
      rw [List.mk_mem_zipIdx_iff_getElem?]
      simpa [hi] using free
    simp only [lowestFree, Option.map_eq_none_iff, List.find?_eq_none] at h
    exact absurd rfl (h _ absent)
  | some j =>
    obtain ⟨-, freeJ, belowJ⟩ := lowestFree_spec v j h
    rcases Nat.lt_trichotomy i j with lt | rfl | gt
    · exact absurd free (belowJ i lt)
    · rfl
    · exact absurd freeJ (below j gt)

/-- A start that conflicts with nothing stays so where no other window has joined the timeline. -/
theorem clearAt_mono {s t : State} (guard : t.arb.guard = s.arb.guard)
    (windows : ∀ k y, t.record? k = some y → y.occ.state.inTimeline = true → s.record? k = some y) (o : Owner)
    (profile : Nat) (start : LocalTime) (len : Nat) (h : s.clearAt o profile start len) : t.clearAt o profile start len :=
  fun k y hy hi => (conflicts_congr guard o profile start len y).trans (h k y (windows k y hy hi) hi)

theorem contests_clear (s : State) (x : Arrival) (profile : Nat) (start : LocalTime) (len : Nat)
    (h : s.clearAt x.owner profile start len) : s.contests x profile start len = [] := by
  have none_conflicts := (conflictSet_eq_nil s x.owner profile len start).mpr h
  rw [State.conflictSet] at none_conflicts
  simp only [State.contests, none_conflicts, List.map_nil]

/-- R83: a trial without a rival is placeable. -/
theorem trial_clear (s : State) (x : Arrival) (profile : Nat) (start : LocalTime) (len : Nat)
    (h : s.clearAt x.owner profile start len) : s.trial x profile start len = true := by
  simp only [State.trial, contests_clear s x profile start len h, List.all_nil]

/-- R71: an arrival without a rival is granted its nominal start. -/
theorem arbitrate_clear (w : Work) (h : Nat) (r : Record) (origin : Origin) (start : LocalTime)
    (hn : r.occ.nominal = some start) (clear : w.st.clearAt r.owner r.occ.profile start r.occ.remaining) :
    w.arbitrate h r origin = (({ w with st := w.st.grantAt h start 0 }).report origin h .granted start 0, []) := by
  have noRival := contests_clear w.st ⟨h, r.owner, r.kind, r.occ.level⟩ r.occ.profile start r.occ.remaining clear
  simp [Work.arbitrate, hn, noRival, Work.decide', Work.grant, State.withdraw, State.handleMembers]

/-- The window of a record that stands GRANTED at a start with its notice to come (R97). -/
def Record.standing (r : Record) (start : LocalTime) (lead : Nat) : Record :=
  (r.grantedAt start 0).withNotice (some (less start lead))

theorem updateOcc_of_record (s : State) (h : Nat) (r : Record) (g : Occurrence → Occurrence)
    (hr : s.record? h = some r) : s.updateOcc h g = s.setRecord h (some { r with occ := g r.occ }) := by
  simp only [State.updateOcc, State.updateRecord, hr]

theorem setRecord_setRecord (s : State) (h : Nat) (r q : Option Record) :
    (s.setRecord h r).setRecord h q = s.setRecord h q := by
  simp [State.setRecord]

/-- A start whose notice instant lies ahead of LT posts nothing (R97). -/
theorem grantAt_before_notice (s : State) (h : Nat) (r : Record) (start : LocalTime) (hr : s.record? h = some r)
    (ahead : before s.tb.lt (less start s.sc.params.lead) = true) :
    s.grantAt h start 0 = s.setRecord h (some (r.standing start s.sc.params.lead)) := by
  have inTable := record?_lt s h r hr
  have granted : (s.setRecord h (some (r.grantedAt start 0))).record? h = some (r.grantedAt start 0) := by
    rw [record?_setRecord, if_pos ⟨rfl, inTable⟩]
  have placed : s.updateOcc h (fun x => { x with state := .granted, placed := start, shift := 0 })
      = s.setRecord h (some (r.grantedAt start 0)) := updateOcc_of_record s h r _ hr
  have noticed := updateOcc_of_record _ h _ (fun x => { x with notice := some (less start s.sc.params.lead) }) granted
  rw [setRecord_setRecord] at noticed
  have lead : before (s.setRecord h (some (r.grantedAt start 0))).tb.lt
      (less (r.grantedAt start 0).occ.placed (s.setRecord h (some (r.grantedAt start 0))).sc.params.lead) = true := ahead
  simp only [State.grantAt, placed, State.setNotice, granted, lead, if_true]
  exact noticed

/-- The cascade of one offer without a rival: its window stands GRANTED, and WC takes that up (R71, R77, R86). -/
theorem run_offer_clear (w : Work) (h : Nat) (r : Record) (start : LocalTime)
    (hr : w.st.record? h = some r) (withdrawn : r.occ.state = .withdrawn) (hn : r.occ.nominal = some start)
    (clear : w.st.clearAt r.owner r.occ.profile start r.occ.remaining)
    (ahead : before w.st.tb.lt (less start w.st.sc.params.lead) = true) :
    w.run [.offer h r.occ.k .admission]
      = some { w with
          st := (w.st.setRecord h (some (r.standing start w.st.sc.params.lead))).refreshWindows
          admitted := w.admitted ++ [⟨h, .granted, start, 0⟩] } := by
  refine run_of_runTasks 1 _ w _ ?_ (by decide)
  have offered : doTask (.offer h r.occ.k .admission) w = w.arbitrate h r .admission := by
    simp [doTask, hr, withdrawn]
  rw [runTasks_cons, offered, arbitrate_clear w h r .admission start hn clear,
    grantAt_before_notice w.st h r start hr ahead, List.append_nil, runTasks_nil]
  rfl

end Sys2Proof.Machine
end

section
namespace Sys2Proof.Machine

/-! ### EXCHANGE SUBMIT of one step (R120 to R125) -/

section
variable (s : State) (o : Owner) (sv adv x0adv : Nat) (a : ExchangeParams) (x : StepParams) (x0 lt : LocalTime)

/-- Steps 2 and 3 of R120 for a submission of one step. -/
theorem exchangeOutOfRange_one (count : a.count = 1) (steps : a.steps = [x]) (earliest : a.earliest.valid = true)
    (latest : a.latest.valid = true) (level : a.level ≤ 15) (direction : x.direction ≤ 1) (offset : x.offset ≤ 4000000)
    (short : 1200 ≤ x.length) (long : x.length ≤ 480000) (profile : x.profile ≤ 15) : exchangeOutOfRange a = false := by
  simp [exchangeOutOfRange, stepsOverlap, stepOutOfRange, count, steps, earliest, latest, level, direction, offset,
    short, long, profile]

/-- R122: a step that resolves on the SERVING entry, with no handover pending, is a candidate there. -/
theorem resolveCandidate_one (start : CellTime) (ref : LocalTime) (ho : s.handover? o = none)
    (found : s.resolveOn sv (start.add x.offset) ref (x.direction == 1) 0 = .found lt adv) :
    s.resolveCandidate o sv start ref [x] = .on sv [⟨x, lt, adv⟩] := by
  simp [State.resolveCandidate, State.resolveSteps, found, ho]

/-- R123: a step far enough ahead without a rival is usable. -/
theorem stepsUsable_one (level : Nat) (far : s.farEnough lt = true) (clear : s.clearAt o x.profile lt x.length) :
    s.stepsUsable o level [⟨x, lt, adv⟩] = true := by
  refine (stepsUsable_iff s o level _).mpr ⟨by simpa using far, rfl, fun y hy => ?_⟩
  have step : y.1 = ⟨x, lt, adv⟩ := List.mem_singleton.mp (List.of_mem_zip hy).1
  simp only [State.stepTrial, step]
  exact trial_clear s _ x.profile lt x.length clear

/-- R122, R123: the search ends at its first candidate. -/
theorem placeExchange_first (steps : a.steps = [x]) (ho : s.handover? o = none)
    (base : s.resolveOn sv a.earliest s.tb.lt false 0 = .found x0 x0adv)
    (found : s.resolveOn sv ((a.earliest.add 0).add x.offset) (less x0 1) (x.direction == 1) 0 = .found lt adv)
    (far : s.farEnough lt = true) (clear : s.clearAt o x.profile lt x.length) :
    s.placeExchange o sv a = .chosen 0 sv [⟨x, lt, adv⟩] := by
  have candidate : s.resolveCandidate o sv (candidateStart a 0) (less x0 1) a.steps = .on sv [⟨x, lt, adv⟩] := by
    rw [steps]
    exact resolveCandidate_one s o sv adv x lt _ _ ho found
  simp only [State.placeExchange, base]
  exact searchCandidates_usable s o sv a _ _ 0 sv _ candidate (stepsUsable_one s o adv x lt a.level far clear)

/-- R120, R121: a submission that passes every check is admitted where its search chose. -/
theorem submit_admits (i : Nat) (j entry : Nat) (ps : List PlacedStep) (inRange : exchangeOutOfRange a = false)
    (span : exchangeSpan a ≤ 3060000) (serving : s.serving? o = some sv) (timed : s.timed sv = true)
    (exchanges : s.exchangesOf o < 3) (free : lowestFree s.su.exchanges = some i)
    (quota : s.recordsOf o + a.count ≤ 40) (room : s.recordList.length + a.count ≤ 64)
    (chosen : s.placeExchange o sv a = .chosen j entry ps) :
    s.submit o a = s.admitExchange o a j entry ps := by
  simp [State.submit, inRange, Nat.not_lt.mpr span, serving, timed, Nat.not_le.mpr exchanges, free,
    Nat.not_lt.mpr quota, Nat.not_lt.mpr room, chosen]

end

/-- R38: a follows-serving record takes the lowest free handle and counts on no entry. -/
theorem admitRecord_followsServing (s : State) (r : Record) (h : Nat) (free : lowestFree s.rt.records = some h)
    (binding : r.binding = .followsServing) : s.admitRecord r = some (h, s.setRecord h (some r)) := by
  simp only [State.admitRecord, free, binding]

/-- The state once a one-step exchange is placed and WC has taken its window up. -/
def State.withExchange (s : State) (i h : Nat) (e : Exchange) (r : Record) : State :=
  ((s.setRecord h (some r)).setExchange i (some e)).refreshWindows

theorem admitSteps_one (s : State) (r : Record) (h : Nat) (free : lowestFree s.rt.records = some h)
    (binding : r.binding = .followsServing) : s.admitSteps [r] = some (s.setRecord h (some r), [h]) := by
  simp [State.admitSteps, admitRecord_followsServing s r h free binding]

/-- R124, R125: what an admission whose step records are written and whose cascade has run answers. -/
theorem admitExchange_ran {s s1 : State} {o : Owner} {a : ExchangeParams} {i j entry : Nat} {ps : List PlacedStep}
    {handles : List Nat} {w : Work} (free : lowestFree s.su.exchanges = some i)
    (admitted : s.admitSteps (ps.map (stepRecord o a i j entry)) = some (s1, handles))
    (ran : ({ Work.of (s1.setExchange i (some (newExchange o a j entry handles))) with submitting := some i } : Work).run
      (handles.map (fun h => .offer h 0 .admission)) = some w) :
    s.admitExchange o a j entry ps = some (accept w.st (submitResult i j entry a handles ps w.abandoned)) := by
  simp only [State.admitExchange, free, admitted, ran]

/-- R124, R125: one step admitted without a rival stands GRANTED, and the response tells so. -/
theorem admitExchange_one (s : State) (o : Owner) (a : ExchangeParams) (i h j entry adv : Nat) (x : StepParams)
    (lt : LocalTime) (freeExchange : lowestFree s.su.exchanges = some i) (freeHandle : lowestFree s.rt.records = some h)
    (clear : s.clearAt o x.profile lt x.length) (ahead : before s.tb.lt (less lt s.sc.params.lead) = true) :
    s.admitExchange o a j entry [⟨x, lt, adv⟩]
      = some (accept
          (s.withExchange i h (newExchange o a j entry [h])
            ((stepRecord o a i j entry ⟨x, lt, adv⟩).standing lt s.sc.params.lead))
          (submitResult i j entry a [h] [⟨x, lt, adv⟩] none)) := by
  let r := stepRecord o a i j entry ⟨x, lt, adv⟩
  let s2 := (s.setRecord h (some r)).setExchange i (some (newExchange o a j entry [h]))
  have inTable : h < 64 := (lowestFree_spec _ _ freeHandle).1
  have records : ∀ k, s2.record? k = if k = h then some r else s.record? k := fun k => by
    have written := record?_setRecord s h k (some r)
    simp only [inTable, and_true] at written
    exact written
  have clear2 : s2.clearAt o x.profile lt x.length :=
    clearAt_mono (s := s) (t := s2) rfl (fun k y hy hi => by
      rw [records] at hy
      split at hy
      · cases hy
        cases hi
      · exact hy) o x.profile lt x.length clear
  have placed : s2.setRecord h (some (r.standing lt s.sc.params.lead))
      = (s.setRecord h (some (r.standing lt s.sc.params.lead))).setExchange i (some (newExchange o a j entry [h])) :=
    congrArg (fun t : State => t.setExchange i (some (newExchange o a j entry [h]))) (setRecord_setRecord s h _ _)
  have ran := run_offer_clear { Work.of s2 with submitting := some i } h r lt ((records h).trans (if_pos rfl)) rfl rfl
    clear2 ahead
  refine (admitExchange_ran (o := o) (a := a) (j := j) (entry := entry) (ps := [⟨x, lt, adv⟩]) freeExchange
    (admitSteps_one s r h freeHandle rfl) ran).trans ?_
  rw [State.withExchange, ← placed]
  rfl

section
variable (s : State) (i h : Nat) (e : Exchange) (r : Record)

theorem record?_withExchange (hh : h < 64) (k : Nat) :
    (s.withExchange i h e r).record? k = if k = h then some r else s.record? k := by
  have written := record?_setRecord s h k (some r)
  simp only [hh, and_true] at written
  exact written

theorem exchange?_withExchange (hi : i < 4) (k : Nat) :
    (s.withExchange i h e r).exchange? k = if k = i then some e else s.exchange? k := by
  have written := exchange?_setExchange s i k (some e)
  simp only [hi, and_true] at written
  exact written

theorem withExchange_sameExcept : s.sameExcept (s.withExchange i h e r) [.wc, .rt, .su] :=
  sameExcept_wc_rt_su s _ _ _

/-- R86: beside the record and the exchange, WC replans. -/
theorem withExchange_wc :
    (s.withExchange i h e r).wc
        = { s.wc with next := (s.withExchange i h e r).wc.next, load := (s.withExchange i h e r).wc.load }
      ∧ (s.withExchange i h e r).wc.load.map (fun l => { l with serves := none })
        = s.wc.load.map (fun l => { l with serves := none }) :=
  refreshWindows_wc ((s.setRecord h (some r)).setExchange i (some e))

end

/-- A command whose effect is one placed exchange with one record on a free handle. -/
theorem planCommand_withExchange {s : State} {p : Port} {n i h : Nat} {c : Instr} {body : State → Reply}
    {rs : List Byte} {e : Exchange} {r : Record} (hx : s.executes p n c)
    (hb : body s = some (accept (s.withExchange i h e r) rs)) (hi : i < 4) (hh : h < 64) (free : s.record? h = none) :
    ∃ t, s.planCommand p c body = .next t ∧ t.exchange? i = some e
      ∧ (∀ k, k ≠ i → t.exchange? k = s.exchange? k) ∧ t.su.calls = s.su.calls ∧ t.record? h = some r
      ∧ (∀ k, k ≠ h → t.record? k = s.record? k) ∧ t.port p = (s.port p).answered n .ok rs
      ∧ s.replannedExcept t [.rt, .su, .port p] := by
  have records := record?_withExchange s i h e r hh
  have table := exchange?_withExchange s i h e r hi
  obtain ⟨plan, load⟩ := withExchange_wc s i h e r
  have kept : ∀ k q, s.record? k = some q → q.occ.state = .active → (s.withExchange i h e r).record? k = some q :=
    fun k q hq _ => by
      have other : k ≠ h := by rintro rfl; rw [free] at hq; cases hq
      rw [records, if_neg other, hq]
  obtain ⟨t, step, rt, su, port, frame⟩ := planCommand_replans (parts := [.rt, .su]) hx hb rfl
    (quiet_of_active_kept s _ kept) (withExchange_sameExcept s i h e r) plan load rfl
  refine ⟨t, step, ?_, fun k hk => ?_, by rw [su]; rfl, ?_, fun k hk => ?_, port, frame⟩
  · rw [exchange?_congr _ t su, table, if_pos rfl]
  · rw [exchange?_congr _ t su, table, if_neg hk]
  · rw [record?_congr _ t rt, records, if_pos rfl]
  · rw [record?_congr _ t rt, records, if_neg hk]

/-- R125: the response to one step GRANTED at its first candidate. -/
theorem submitResult_one (a : ExchangeParams) (i h sv adv : Nat) (x : StepParams) (lt : LocalTime) :
    submitResult i 0 sv a [h] [⟨x, lt, adv⟩] none
      = bytesOfNat 1 i ++ [0] ++ bytesOfNat 2 1 ++ [0] ++ bytesOfTime (a.earliest.add 0) ++ bytesOfNat 1 sv
        ++ (bytesOfNat 1 h ++ [0] ++ bytesOfNat 6 lt.toNat) := by
  have zero : bytesOfNat 1 0 = [0] := rfl
  have first : candidateStart a 0 = a.earliest.add 0 := by simp only [candidateStart, Nat.zero_mul]
  simp [submitResult, submitStepBytes, submissionCode, ltBytes, zero, first]

theorem stepKind_eq (direction : Nat) : stepKind direction = if direction = 1 then .stepTx else .stepRx := by
  simp [stepKind]

/-- Step 2 of R124: the record of a step at candidate 0, once it stands GRANTED. -/
theorem stepRecord_standing (o : Owner) (a : ExchangeParams) (i sv adv lead : Nat) (x : StepParams) (lt : LocalTime) :
    (stepRecord o a i 0 sv ⟨x, lt, adv⟩).standing lt lead
      = { owner := o, kind := if x.direction = 1 then .stepTx else .stepRx, binding := .followsServing
          start := (a.earliest.add 0).add x.offset, length := x.length, level := a.level, period := none
          count := some 1, remaining := some 0, mask := 65535, slack := 0, resumable := false, profile := x.profile
          link := some (.exchange i), served := 0, lost := 0
          occ :=
            { k := 0, state := .granted, entry := sv, nominal := some lt, advance := adv, placed := lt, shift := 0
              remaining := x.length, served := 0, suspensions := 0, level := a.level, slack := 0, profile := x.profile
              resumable := false, taken := true, firstRise := none, cutAt := none, shortfall := false
              resumeFloor := none, deadline := none, lateLoad := false, widened := false
              notice := some (less lt lead) } } := by
  have masked : (65535 : BitVec 16).getLsbD (0 % 16) = true := by decide
  simp only [stepRecord, stepKind_eq, candidateStart, Nat.zero_mul, Record.standing, Record.withNotice, Record.grantedAt,
    Record.startingAt, Record.freshOcc, Record.takes, masked]

/-- Step 1 of R124 for one step. -/
theorem newExchange_one (o : Owner) (a : ExchangeParams) (x : StepParams) (h j entry : Nat) (steps : a.steps = [x]) :
    newExchange o a j entry [h]
      = { owner := o, state := .placed, earliest := a.earliest, latest := a.latest, level := a.level
          steps := [⟨x.direction == 1, x.offset, x.length, x.profile, some h, none⟩], candidate := j, entry := entry
          done := 0, cancelPending := false } := by
  simp only [newExchange, steps, List.zip_cons_cons, List.zip_nil_left, List.map_cons, List.map_nil]

theorem exec_exchangeSubmit (p : Port) (a : ExchangeParams) (s : State) :
    exec (.exchangeSubmit p a) s = s.planCommand p (.exchangeSubmit p a) (fun t =>
      withOwnerReply p t (fun o => t.submit o a)) := rfl

/-- Settles O43: the checks pass, the search ends at its first candidate, and the one offer it sets off has no rival. -/
theorem exchangeSubmitPlacesTheStep : Obligations.ExchangeSubmitPlacesTheStep := by
  intro s o n sv i h adv x0adv a x x0 lt executes count steps earliest latest level direction offset short long profile
    span serving timed noHandover exchanges hi freeExchange belowExchange quota room hh freeHandle belowHandle base found
    far clear ahead
  have exchangeIndex : lowestFree s.su.exchanges = some i := lowestFree_eq _ i hi freeExchange belowExchange
  have handle : lowestFree s.rt.records = some h := lowestFree_eq _ h hh freeHandle belowHandle
  have inRange := exchangeOutOfRange_one a x count steps earliest latest level direction offset short long profile
  have chosen := placeExchange_first s o sv adv x0adv a x x0 lt steps noHandover base found far clear
  have admitted := admitExchange_one s o a i h 0 sv adv x lt exchangeIndex handle clear ahead
  have submitted := (submit_admits s o sv a i 0 sv _ inRange span serving timed exchanges exchangeIndex (by omega)
    (by omega) chosen).trans admitted
  rw [newExchange_one o a x h 0 sv steps, stepRecord_standing, submitResult_one] at submitted
  rw [exec_exchangeSubmit]
  exact planCommand_withExchange (body := fun t => withOwnerReply o.port t (fun o => t.submit o a)) executes
    ((withOwnerReply_port o s _).trans submitted) hi hh freeHandle

end Sys2Proof.Machine
end

/-! ## Handover -/

section
namespace Sys2Proof.Machine

/-! ### What a step's effect does before it is settled -/

/-- `u` is `s` but for the listed parts, WC's next window and the window that a word in flight serves (R86). -/
structure State.Replans (s u : State) (parts : List Block) : Prop where
  same : s.sameExcept u (.wc :: parts)
  next : u.wc = { s.wc with next := u.wc.next, load := u.wc.load }
  load : u.wc.load.map (fun l => { l with serves := none }) = s.wc.load.map (fun l => { l with serves := none })
  sc : u.sc = s.sc

namespace State.Replans

theorem of_same {s u : State} {parts : List Block} (same : s.sameExcept u parts) (wc : u.wc = s.wc) (sc : u.sc = s.sc) :
    s.Replans u parts :=
  ⟨sameExcept_mono (fun _ h => List.mem_cons_of_mem _ h) same, by rw [wc], by rw [wc], sc⟩

theorem refl (s : State) (parts : List Block) : s.Replans s parts := of_same (sameExcept_refl s parts) rfl rfl

theorem mono {s u : State} {parts more : List Block} (a : s.Replans u parts) (sub : ∀ b ∈ parts, b ∈ more) :
    s.Replans u more :=
  { a with same := sameExcept_mono (List.cons_subset_cons _ sub) a.same }

theorem trans {s t u : State} {parts : List Block} (a : s.Replans t parts) (b : t.Replans u parts) : s.Replans u parts where
  same := sameExcept_trans a.same b.same
  next := b.next.trans (congrArg (fun w : WindowController =>
    { w with next := u.wc.next, load := u.wc.load }) a.next)
  load := b.load.trans a.load
  sc := b.sc.trans a.sc

theorem refreshWindows (s : State) (parts : List Block) : s.Replans s.refreshWindows parts where
  same := by
    refine sameExcept_mono (parts := [.wc]) (by simp) ?_
    exact ⟨fun _ => rfl, fun _ => rfl, fun _ => rfl, fun _ => rfl, by simp, fun _ => rfl, fun _ => rfl, fun _ => rfl,
      fun _ _ => rfl, fun _ => rfl, fun _ => rfl, fun _ => rfl⟩
  next := (refreshWindows_wc s).1
  load := (refreshWindows_wc s).2
  sc := rfl

theorem setRecord (s : State) (h : Nat) (r : Option Record) : s.Replans (s.setRecord h r) [.rt] :=
  of_same (sameExcept_rt s _) rfl rfl

theorem setExchange (s : State) (i : Nat) (x : Option Exchange) : s.Replans (s.setExchange i x) [.su] :=
  of_same (sameExcept_su s _) rfl rfl

theorem withCt (s : State) (ct : CellTable) : s.Replans { s with ct := ct } [.ct] :=
  of_same ⟨fun _ => rfl, by simp, fun _ => rfl, fun _ => rfl, fun _ => rfl, fun _ => rfl, fun _ => rfl, fun _ => rfl,
    fun _ _ => rfl, fun _ => rfl, fun _ => rfl, fun _ => rfl⟩ rfl rfl

theorem withHu (s : State) (hu : HandoverUnit) : s.Replans { s with hu := hu } [.hu] :=
  of_same ⟨fun _ => rfl, fun _ => rfl, fun _ => rfl, fun _ => rfl, fun _ => rfl, fun _ => rfl, by simp, fun _ => rfl,
    fun _ _ => rfl, fun _ => rfl, fun _ => rfl, fun _ => rfl⟩ rfl rfl

theorem setPort (s : State) (p : Port) (x : PortState) : s.Replans (s.setPort p x) [.port p] :=
  of_same (sameExcept_setPort p x (sameExcept_refl s [])) rfl rfl

theorem post (s : State) (o : Owner) (k : EventKind) (x : Nat) (r : Reason) (f : BitVec 8) (d : BitVec 16) :
    s.Replans (s.post o k x r f d) [.port o.port] := setPort s o.port _

variable {s u : State} {parts : List Block}

theorem tb (a : s.Replans u parts) (h : Block.tb ∉ parts) : u.tb = s.tb := a.same.1 (by simp [h])

theorem ct (a : s.Replans u parts) (h : Block.ct ∉ parts) : u.ct = s.ct := a.same.2.1 (by simp [h])

theorem rt (a : s.Replans u parts) (h : Block.rt ∉ parts) : u.rt = s.rt := a.same.2.2.1 (by simp [h])

theorem arb (a : s.Replans u parts) (h : Block.arb ∉ parts) : u.arb = s.arb := a.same.2.2.2.1 (by simp [h])

theorem hu (a : s.Replans u parts) (h : Block.hu ∉ parts) : u.hu = s.hu := a.same.2.2.2.2.2.2.1 (by simp [h])

theorem port (a : s.Replans u parts) (p : Port) (h : Block.port p ∉ parts) : u.port p = s.port p :=
  a.same.2.2.2.2.2.2.2.2.1 p (by simp [h])

/-- Settled without an activation, the effect is the step's: nothing else changes but for replanning. -/
theorem settled (a : s.Replans u parts) (quiet : s.active? = none ∨ u.active? ≠ none) :
    s.replannedExcept (State.settle s u) parts := by
  have framed : ({ s with wc := u.wc } : State).sameExcept u parts := by
    obtain ⟨tb, ct, rt, arb, -, su, hu, sc, ports, resetN, free, pending⟩ := a.same
    simp only [List.mem_cons, not_or] at *
    exact ⟨fun h => tb ⟨by simp, h⟩, fun h => ct ⟨by simp, h⟩, fun h => rt ⟨by simp, h⟩, fun h => arb ⟨by simp, h⟩,
      fun _ => rfl, fun h => su ⟨by simp, h⟩, fun h => hu ⟨by simp, h⟩, fun h => sc ⟨by simp, h⟩,
      fun q h => ports q ⟨by simp, h⟩, fun h => resetN ⟨by simp, h⟩, fun h => free ⟨by simp, h⟩,
      fun h => pending ⟨by simp, h⟩⟩
  obtain ⟨⟨tb, ct, rt, arb, -, su, hu, -, ports, resetN, free, pending⟩, next, load, sleep⟩ :=
    settle_replans { s with wc := u.wc } u parts quiet framed rfl a.sc
  exact ⟨⟨tb, ct, rt, arb, by simp, su, hu, by simp, ports, resetN, free, pending⟩,
    next.trans (congrArg (fun w : WindowController =>
      { w with next := (State.settle s u).wc.next, load := (State.settle s u).wc.load }) a.next),
    load.trans a.load, sleep⟩

end State.Replans

/-- `t` holds what the effect `u` has written; WC and SC are settled beside it. -/
structure State.Holds (t u : State) : Prop where
  ct : t.ct = u.ct
  rt : t.rt = u.rt
  su : t.su = u.su
  hu : t.hu = u.hu

theorem settle_holds (s u : State) (quiet : s.active? = none ∨ u.active? ≠ none) :
    (State.settle s u).Holds u ∧ ∀ p, (State.settle s u).port p = u.port p := by
  obtain ⟨⟨-, ct, rt, -, -, su, hu, -, ports, -⟩, -⟩ := settle_quiet s u quiet
  exact ⟨⟨ct (by simp), rt (by simp), su (by simp), hu (by simp)⟩, fun p => ports p (by simp)⟩

/-- An accepted plan command whose effect ends no ACTIVE window and may have posted events to its own port. -/
theorem planCommand_settles {s u : State} {p : Port} {n : Nat} {i : Instr} {body : State → Reply} {rs : List Byte}
    {parts : List Block} (hx : s.executes p n i) (hb : body s = some (accept u rs))
    (slot : (u.port p).slot = (s.port p).slot) (quiet : s.active? = none ∨ u.active? ≠ none) (frame : s.Replans u parts)
    (listed : Block.port p ∈ parts) :
    ∃ t, s.planCommand p i body = .next t ∧ t.Holds u ∧ t.port p = (u.port p).answered n .ok rs
      ∧ s.replannedExcept t parts := by
  let v := u.setPort p ((u.port p).answered n .ok rs)
  have quiet' : s.active? = none ∨ v.active? ≠ none := by rwa [active?_congr u v rfl]
  obtain ⟨⟨ct, rt, su, hu⟩, ports⟩ := settle_holds s v quiet'
  refine ⟨State.settle s v, planCommand_accepts hx hb (slot.trans hx.2), ⟨ct, rt, su, hu⟩, ?_, ?_⟩
  · rw [ports, port_setPort, if_pos rfl]
  · exact (frame.trans ((State.Replans.setPort u p _).mono (by simpa using listed))).settled quiet'

/-- A row of the part's own whose effect ends no ACTIVE window. -/
theorem cascade_settles {s u : State} {parts : List Block} (quiet : s.active? = none ∨ u.active? ≠ none)
    (frame : s.Replans u parts) :
    ∃ t, s.cascade true (some u) = .next t ∧ t.Holds u ∧ (∀ p, t.port p = u.port p) ∧ s.replannedExcept t parts :=
  have ⟨holds, ports⟩ := settle_holds s u quiet
  ⟨State.settle s u, rfl, holds, ports, frame.settled quiet⟩

/-- Where the records stay, settling activates nothing. -/
theorem quiet_of_rt {s u : State} (rt : u.rt = s.rt) : s.active? = none ∨ u.active? ≠ none := by
  rw [active?_congr s u rt]
  exact Classical.em _

theorem handover?_congr (s t : State) (h : t.hu = s.hu) (o : Owner) : t.handover? o = s.handover? o := by
  unfold State.handover?
  rw [h]

theorem resolveOn_congr {s t : State} (h : t.ct = s.ct) (entry : Nat) (time : CellTime) (ref : LocalTime) (tx : Bool)
    (earlier : Nat) : t.resolveOn entry time ref tx earlier = s.resolveOn entry time ref tx earlier := by
  simp only [State.resolveOn, cell?_congr s t h]

end Sys2Proof.Machine
end

section
namespace Sys2Proof.Machine

/-! ### The one entry of a table that a filter keeps -/

theorem tableList_keys_nodup {α : Type} {n : Nat} (v : Vector (Option α) n) : ((tableList v).map (·.1)).Nodup := by
  have index : ∀ x : Option α × Nat, (x.1.map (fun y => (x.2, y))).map (·.1) = x.1.map (fun _ => x.2) := fun x => by
    cases x.1 <;> rfl
  have sub : ((tableList v).map (·.1)).Sublist (v.toList.zipIdx.map (·.2)) := by
    simp only [tableList, List.map_filterMap, index]
    induction v.toList.zipIdx with
    | nil => exact List.Sublist.slnil
    | cons x xs ih =>
      cases h : x.1 with
      | none => simpa [h] using ih.cons x.2
      | some y => simpa [h] using ih
  refine sub.nodup ?_
  rw [List.zipIdx_map_snd]
  exact List.nodup_range'

/-- An entry of a table parts its list: no other element has its index. -/
theorem tableList_split {α : Type} {n : Nat} (v : Vector (Option α) n) (i : Nat) (x : α) (hx : (i, x) ∈ tableList v) :
    ∃ before' after', tableList v = before' ++ (i, x) :: after'
      ∧ ∀ k z, (k, z) ∈ before' ++ after' → k ≠ i ∧ (k, z) ∈ tableList v := by
  obtain ⟨l1, l2, hl⟩ := List.append_of_mem hx
  have within : ∀ y ∈ l1 ++ l2, y ∈ tableList v := fun y hy => hl ▸ (List.mem_append.mp hy).elim
    (fun front => List.mem_append_left _ front) (fun back => List.mem_append_right _ (List.mem_cons_of_mem _ back))
  refine ⟨l1, l2, hl, fun k z hz => ⟨?_, within _ hz⟩⟩
  have distinct := tableList_keys_nodup v
  rw [hl, List.map_append, List.map_cons, List.nodup_append, List.nodup_cons] at distinct
  obtain ⟨-, ⟨behind, -⟩, ahead⟩ := distinct
  rcases List.mem_append.mp hz with front | back
  · exact ahead k (List.mem_map.mpr ⟨_, front, rfl⟩) i List.mem_cons_self
  · rintro rfl
    exact behind (List.mem_map.mpr ⟨_, back, rfl⟩)

/-- A filter that only one entry passes. -/
theorem tableList_filter_one {α : Type} {n : Nat} (v : Vector (Option α) n) (p : Nat × α → Bool) (i : Nat) (x : α)
    (hx : (v[i]?).join = some x) (hp : p (i, x) = true)
    (others : ∀ k z, k ≠ i → (v[k]?).join = some z → p (k, z) = false) : (tableList v).filter p = [(i, x)] := by
  obtain ⟨l1, l2, hl, rest⟩ := tableList_split v i x ((mem_tableList v i x).mpr hx)
  have fails : ∀ y ∈ l1 ++ l2, p y = false := fun y hy =>
    have ⟨other, mem⟩ := rest y.1 y.2 hy
    others y.1 y.2 other ((mem_tableList v y.1 y.2).mp mem)
  have none1 : l1.filter p = [] := List.filter_eq_nil_iff.mpr fun y hy => by simp [fails y (List.mem_append_left _ hy)]
  have none2 : l2.filter p = [] := List.filter_eq_nil_iff.mpr fun y hy => by simp [fails y (List.mem_append_right _ hy)]
  rw [hl, List.filter_append, List.filter_cons, if_pos hp, none1, none2, List.nil_append]

/-- A filter of the records that none passes. -/
theorem recordList_filter_none (s : State) (p : Nat × Record → Bool)
    (h : ∀ k q, s.record? k = some q → p (k, q) = false) : s.recordList.filter p = [] :=
  List.filter_eq_nil_iff.mpr fun y hy => by simp [h y.1 y.2 ((mem_recordList s y.1 y.2).mp hy)]

theorem recordList_filter_one (s : State) (p : Nat × Record → Bool) (h : Nat) (r : Record) (hr : s.record? h = some r)
    (hp : p (h, r) = true) (others : ∀ k q, k ≠ h → s.record? k = some q → p (k, q) = false) :
    s.recordList.filter p = [(h, r)] := tableList_filter_one s.rt.records p h r hr hp others

end Sys2Proof.Machine
end

section
namespace Sys2Proof.Machine

/-! ### One record rewritten -/

/-- `u` is `s` with the record of `h` and the port of `o` as given, WC replanned: what a cascade about one record leaves. -/
structure State.Rewrites (s u : State) (o : Owner) (h : Nat) (x : PortState) (r : Option Record) : Prop where
  frame : s.Replans u [.rt, .port o.port]
  port : u.port o.port = x
  record : u.record? h = r
  others : ∀ k, k ≠ h → u.record? k = s.record? k

namespace State.Rewrites

theorem refl (s : State) (o : Owner) (h : Nat) : s.Rewrites s o h (s.port o.port) (s.record? h) :=
  ⟨Replans.refl s _, rfl, rfl, fun _ _ => rfl⟩

variable {s u : State} {o : Owner} {h : Nat} {x : PortState} {r : Option Record}

theorem refreshWindows (a : s.Rewrites u o h x r) : s.Rewrites u.refreshWindows o h x r :=
  ⟨a.frame.trans (Replans.refreshWindows u _), a.port, a.record, a.others⟩

theorem setRecord (a : s.Rewrites u o h x r) (inTable : h < 64) (q : Option Record) :
    s.Rewrites (u.setRecord h q) o h x q where
  frame := a.frame.trans ((Replans.setRecord u h q).mono (by simp))
  port := a.port
  record := by rw [record?_setRecord, if_pos ⟨rfl, inTable⟩]
  others := fun k hk => by rw [record?_setRecord, if_neg fun both => hk both.1, a.others k hk]

theorem post (a : s.Rewrites u o h x r) (kind : EventKind) (subject : Nat) (reason : Reason) (flags : BitVec 8)
    (detail : BitVec 16) :
    s.Rewrites (u.post o kind subject reason flags detail) o h (x.push ⟨kind, subject, reason, flags, detail, s.tb.lt⟩) r
    where
  frame := a.frame.trans ((Replans.post u o kind subject reason flags detail).mono (by simp))
  port := by rw [port_post, if_pos rfl, a.port, a.frame.tb (by simp)]
  record := a.record
  others := a.others

/-- The record's window leaves the timeline (R56). -/
theorem withdraw (a : s.Rewrites u o h x r) : s.Rewrites (u.withdraw [h]) o h x (r.map (·.withdrawn)) where
  frame := by
    refine a.frame.trans ?_
    simp only [State.withdraw, List.foldl_cons, List.foldl_nil, State.updateOcc, State.updateRecord]
    split
    · exact (Replans.setRecord u h _).mono (by simp)
    · exact Replans.refl u _
  port := by simpa [State.withdraw, State.port] using a.port
  record := by
    simp only [State.withdraw, List.foldl_cons, List.foldl_nil, record?_updateOcc, if_true, a.record]
    rfl
  others := fun k hk => by
    simp only [State.withdraw, List.foldl_cons, List.foldl_nil, record?_updateOcc, if_neg hk, a.others k hk]

/-- No ACTIVE window has ended where the record was not ACTIVE. -/
theorem quiet (a : s.Rewrites u o h x r) (idle : ∀ q, s.record? h = some q → q.occ.state ≠ .active) :
    s.active? = none ∨ u.active? ≠ none :=
  quiet_of_active_kept s u fun k q hq active => by
    have other : k ≠ h := by rintro rfl; exact idle q hq active
    rw [a.others k other, hq]

end State.Rewrites

/-! ### A start for one record -/

/-- The record of `h` may stand GRANTED at a start: it is far enough ahead, its notice is still to come, and no other window
conflicts with it (R11, R63, R97). -/
structure State.Opens (s : State) (o : Owner) (h profile len : Nat) (start : LocalTime) : Prop where
  far : s.farEnough start = true
  ahead : before s.tb.lt (less start s.sc.params.lead) = true
  free : ∀ k q, k ≠ h → s.record? k = some q → q.occ.state.inTimeline = true → s.conflicts o profile start len q = false

theorem State.Opens.farEnough {s u : State} {o : Owner} {h profile len : Nat} {start : LocalTime} {x : PortState}
    {r : Option Record} (a : s.Opens o h profile len start) (b : s.Rewrites u o h x r) : u.farEnough start = true := by
  simp only [State.farEnough, b.frame.tb (by simp)]
  exact a.far

/-- While the record itself is out of the timeline its start is clear. -/
theorem State.Opens.clearAt {s u : State} {o : Owner} {h profile len : Nat} {start : LocalTime} {x : PortState}
    {r : Record} (a : s.Opens o h profile len start) (b : s.Rewrites u o h x (some r))
    (withdrawn : r.occ.state = .withdrawn) : u.clearAt o profile start len := fun k q hq stands => by
  have other : k ≠ h := by
    rintro rfl
    rw [b.record] at hq
    cases hq
    rw [withdrawn] at stands
    cases stands
  rw [conflicts_congr (congrArg Arbiter.guard (b.frame.arb (by simp)))]
  exact a.free k q other (b.others k other ▸ hq) stands

/-- A start stays open while neither LT, the notice lead, the guard nor a record changes. -/
theorem State.Opens.of_replans {s u : State} {o : Owner} {h profile len : Nat} {start : LocalTime} {parts : List Block}
    (a : s.Opens o h profile len start) (frame : s.Replans u parts)
    (keeps : Block.tb ∉ parts ∧ Block.arb ∉ parts ∧ Block.rt ∉ parts) : u.Opens o h profile len start := by
  obtain ⟨far, ahead, free⟩ := a
  obtain ⟨tb, arb, rt⟩ := keeps
  refine ⟨?_, ?_, fun k q hk hq stands => ?_⟩
  · simpa only [State.farEnough, frame.tb tb] using far
  · rw [frame.tb tb, frame.sc]
    exact ahead
  · rw [conflicts_congr (congrArg Arbiter.guard (frame.arb arb))]
    exact free k q hk (record?_congr s u (frame.rt rt) k ▸ hq) stands

/-! ### The tasks of a member (R56, R141) -/

/-- The only task of a cascade is taken; those it sets off come next (R77). -/
theorem runTasks_task {n : Nat} {t : Task} {more : List Task} {w v : Work} (h : doTask t w = (v, more)) :
    runTasks (n + 1) [t] w = runTasks n more (v.map (·.refreshWindows)) := by
  rw [runTasks_cons, h, List.append_nil]

/-- A record re-resolved at a start on an entry, its window out of the timeline (step 3 of R56). -/
def Record.resolvedTo (r : Record) (entry : Nat) (start : LocalTime) (adv : Nat) : Record :=
  { r with
    occ := { r.occ with
      state := .withdrawn, entry := entry, nominal := some start, advance := adv, placed := start, shift := 0 } }

/-- A record takes its turn: its window is out of the timeline, or it waits with an index that is taken (R49, R56). -/
def Record.inTurn (r : Record) : Prop := r.occ.state = .withdrawn ∨ (r.occ.state = .waiting ∧ r.occ.taken = true)

theorem Record.inTurn_enters {r : Record} (turn : r.inTurn) :
    (r.occ.state == .withdrawn || r.occ.state == .waiting) = true ∧ (r.occ.state == .waiting && !r.occ.taken) = false := by
  rcases turn with h | ⟨h, ht⟩
  · simp [h]
  · simp [h, ht]

section
variable (w : Work) (h : Nat) (r : Record) (entry adv : Nat) (start : LocalTime)

theorem takeMember_found (hr : w.st.record? h = some r) (turn : r.inTurn) (far : w.st.farEnough start = true) :
    doTask (.member h r.occ.k (.found entry start adv)) w
      = ({ w with st := w.st.setRecord h (some (r.resolvedTo entry start adv)) }, [.offer h r.occ.k .member]) := by
  obtain ⟨enters, taken⟩ := Record.inTurn_enters turn
  simp only [doTask, Work.takeMember, hr, enters, beq_self_eq_true, Bool.true_and, if_true, taken, far,
    Bool.false_eq_true, if_false]
  rfl

/-- R142: a member whose target result falls before Ts is missed at the switch. -/
theorem takeMember_switched (hr : w.st.record? h = some r) (turn : r.inTurn) :
    doTask (.member h r.occ.k (.switched entry start adv)) w
      = ({ w with st := w.st.setRecord h (some (r.resolvedTo entry start adv)), missed := w.missed + 1 },
        [.ended h r.occ.k (.missed .switch)]) := by
  obtain ⟨enters, taken⟩ := Record.inTurn_enters turn
  simp only [doTask, Work.takeMember, hr, enters, beq_self_eq_true, Bool.true_and, if_true, taken, Bool.false_eq_true,
    if_false]
  rfl

/-- R71: an offer without a rival stands GRANTED at its nominal start. -/
theorem offer_clear (origin : Origin) (hr : w.st.record? h = some r) (withdrawn : r.occ.state = .withdrawn)
    (hn : r.occ.nominal = some start) (clear : w.st.clearAt r.owner r.occ.profile start r.occ.remaining)
    (ahead : before w.st.tb.lt (less start w.st.sc.params.lead) = true) :
    doTask (.offer h r.occ.k origin) w
      = (({ w with st := w.st.setRecord h (some (r.standing start w.st.sc.params.lead)) }).report origin h .granted start
        0, []) := by
  have offered : doTask (.offer h r.occ.k origin) w = w.arbitrate h r origin := by
    simp only [doTask, hr, withdrawn, beq_self_eq_true, Bool.and_self, if_true]
  rw [offered, arbitrate_clear w h r origin start hn clear, grantAt_before_notice w.st h r start hr ahead]

/-- R41, R142: a missed switch of a record without a session is counted lost, and its walk begins. -/
theorem takeEnding_switch_walks (hr : w.st.record? h = some r) (withdrawn : r.occ.state = .withdrawn)
    (link : r.link = none) (left : r.remaining ≠ some 0) :
    doTask (.ended h r.occ.k (.missed .switch)) w
      = ({ w with st := w.st.setRecord h (some { r with lost := bump r.lost }) }, [.walk h 0 1 false]) := by
  simp [doTask, Work.takeEnding, hr, withdrawn, Record.count', Work.inform, link, left]

/-- R38, R50: a follower without a session that is exhausted leaves its handle free, and RECORD_ENDED says so. -/
theorem exhaust_follower (e : Ending) (hr : w.st.record? h = some r) (link : r.link = none)
    (binding : r.binding = .followsServing) (settled : w.admitting = none) :
    w.exhaust h e
      = { w with st := (w.st.setRecord h none).post r.owner .recordEnded h .exhausted 0 (low16 r.served) } := by
  simp [Work.exhaust, hr, link, settled, State.removeRecord, State.dropLink, binding]

/-- R50, R142: with nothing remaining MISSED is posted, and the follower's record ends. -/
theorem takeEnding_switch_ends (hr : w.st.record? h = some r) (withdrawn : r.occ.state = .withdrawn)
    (link : r.link = none) (binding : r.binding = .followsServing) (settled : w.admitting = none)
    (left : r.remaining = some 0) :
    doTask (.ended h r.occ.k (.missed .switch)) w
      = ({ w with
            st := (((w.st.setRecord h (some { r with lost := bump r.lost })).post r.owner .missed h .missedSwitch 0
              1).setRecord h none).post r.owner .recordEnded h .exhausted 0 (low16 r.served) }, []) := by
  let missed : Work :=
    { w with st := (w.st.setRecord h (some { r with lost := bump r.lost })).post r.owner .missed h .missedSwitch 0 1 }
  have counted : missed.st.record? h = some { r with lost := bump r.lost } :=
    (record?_setRecord w.st h h _).trans (if_pos ⟨rfl, record?_lt _ h r hr⟩)
  have ending : doTask (.ended h r.occ.k (.missed .switch)) w = (missed.exhaust h (.missed .switch), []) := by
    simp [doTask, Work.takeEnding, hr, withdrawn, Record.count', Work.inform, link, left, Work.map, State.closeWalk,
      State.postMissed, missedFlags, flagBits, sat16, missed]
  rw [ending, exhaust_follower missed h _ _ counted link binding settled]

/-- A record at its next index, out of the timeline at a start on an entry (R46). -/
def Record.nextAt (r : Record) : Record :=
  { r with
    remaining := r.remaining.map (· - 1)
    occ := ({ r with remaining := r.remaining.map (· - 1) } : Record).freshOcc ((r.occ.k + 1) % 65536) .withdrawn entry
      (some start) adv }

/-- R46, R142: the walk's next index, taken and far enough ahead, closes the walk and is offered. -/
theorem walkStep_found (hr : w.st.record? h = some r) (withdrawn : r.occ.state = .withdrawn)
    (taken : r.takes ((r.occ.k + 1) % 65536) = true) (far : w.st.farEnough start = true)
    (placed : w.st.resolveFor r.owner r.binding (w.st.generationEntry r)
      (r.start.atIndex ((r.occ.k + 1) % 65536) (r.period.getD 0)) (r.occ.nominal.getD w.st.tb.lt) r.kind.isTx r.occ.advance
      = .found entry start adv) :
    doTask (.walk h 0 1 false) w
      = ({ w with
            st := (w.st.setRecord h (some (r.nextAt entry adv start))).post r.owner .missed h .missedSwitch 0 1 },
          [.offer h ((r.occ.k + 1) % 65536) .generated]) := by
  have taken' : ({ r with remaining := r.remaining.map (· - 1) } : Record).takes ((r.occ.k + 1) % 65536) = true := taken
  simp only [doTask, Work.walkStep, hr, withdrawn, beq_self_eq_true, if_true, placed, taken', far, State.closeWalk]
  rfl

end

end Sys2Proof.Machine
end

section
namespace Sys2Proof.Machine

/-! ### The cascade of one member (R56, R141, R142) -/

/-- What a re-resolution has counted: members moved, missed and lost (R57). -/
def Work.tally (w : Work) : Nat × Nat × Nat := (w.moved, w.missed, w.lost)

theorem counts_of_tally {w : Work} {moved missed lost : Nat} (h : w.tally = (moved, missed, lost)) :
    w.counts = countBytes moved ++ countBytes missed ++ countBytes lost := by
  cases h
  rfl

/-- A cascade under way: it has rewritten the record of `h` and the port of `o` as given, counted a tally, and admits nothing. -/
structure Work.At (w : Work) (s : State) (o : Owner) (h : Nat) (x : PortState) (r : Option Record) (tally : Nat × Nat × Nat) :
    Prop where
  rewrites : s.Rewrites w.st o h x r
  tally : w.tally = tally
  admitting : w.admitting = none

section
variable {s : State} {w v : Work} {o : Owner} {h : Nat} {x : PortState} {tally : Nat × Nat × Nat}

/-- One task taken: WC takes up what it has done, and the tasks it sets off come next (R77, R86). -/
theorem after_task {t : Task} {more : List Task} {r : Option Record} (done : doTask t w = (v, more))
    (rewrites : s.Rewrites v.st o h x r) (counted : v.tally = tally) (admitting : v.admitting = none) :
    ∃ v', (∀ n, runTasks (n + 1) [t] w = runTasks n more v') ∧ v'.At s o h x r tally :=
  ⟨v.map (·.refreshWindows), fun _ => runTasks_task done, rewrites.refreshWindows, counted, admitting⟩

variable {r : Record}

/-- The offer of a record whose start is open: it stands GRANTED there (R71, R97), and a member counts as moved (R57). -/
theorem Work.At.offer {start : LocalTime} (a : w.At s o h x (some r) tally) (owner : r.owner = o)
    (withdrawn : r.occ.state = .withdrawn) (nominal : r.occ.nominal = some start)
    (opens : s.Opens o h r.occ.profile r.occ.remaining start) (origin : Origin) (reported : origin ≠ .admission) :
    ∃ v, runTasks 1 [.offer h r.occ.k origin] w = some v
      ∧ v.At s o h x (some (r.standing start s.sc.params.lead))
          (if origin = .member then (tally.1 + 1, tally.2) else tally) := by
  obtain ⟨rewrites, rfl, admitting⟩ := a
  have sameLead : w.st.sc.params.lead = s.sc.params.lead := by rw [rewrites.frame.sc]
  have ahead : before w.st.tb.lt (less start w.st.sc.params.lead) = true := by
    rw [sameLead, rewrites.frame.tb (by simp)]
    exact opens.ahead
  have offered := offer_clear w h r start origin rewrites.record withdrawn nominal
    (owner ▸ opens.clearAt rewrites withdrawn) ahead
  rw [sameLead] at offered
  have granted := rewrites.setRecord (record?_lt _ h r rewrites.record) (some (r.standing start s.sc.params.lead))
  obtain ⟨v, ran, done⟩ : ∃ v, (∀ n, runTasks (n + 1) [.offer h r.occ.k origin] w = runTasks n [] v)
      ∧ v.At s o h x (some (r.standing start s.sc.params.lead))
          (if origin = .member then (w.tally.1 + 1, w.tally.2) else w.tally) := by
    cases origin with
    | admission => exact absurd rfl reported
    | generated => exact after_task offered granted rfl admitting
    | member => exact after_task offered granted rfl admitting
  exact ⟨v, (ran 0).trans (runTasks_nil 0 v), done⟩

end

section
variable {s u : State} {o : Owner} {h : Nat} {x : PortState} {r : Record} (a : s.Rewrites u o h x (some r))
  (entry adv : Nat) (start : LocalTime) (turn : r.inTurn)
include a turn

/-- A member whose new start is open is moved there (R56, R57). -/
theorem run_member_granted (owner : r.owner = o) (opens : s.Opens o h r.occ.profile r.occ.remaining start) :
    ∃ v, (Work.of u).run [.member h r.occ.k (.found entry start adv)] = some v ∧ v.tally = (1, 0, 0)
      ∧ s.Rewrites v.st o h x (some ((r.resolvedTo entry start adv).standing start s.sc.params.lead)) := by
  have resolved := a.setRecord (record?_lt _ h r a.record) (some (r.resolvedTo entry start adv))
  obtain ⟨w1, ran1, at1⟩ := after_task
    (takeMember_found (Work.of u) h r entry adv start a.record turn (opens.farEnough a))
    resolved rfl rfl
  obtain ⟨v, ran2, done⟩ := at1.offer owner rfl rfl opens .member (by decide)
  exact ⟨v, run_of_runTasks 2 _ _ _ ((ran1 1).trans ran2) (by decide), done.tally, done.rewrites⟩

/-- R142: an index that falls before Ts on the target is missed, and its ending is taken up next. -/
theorem member_switched :
    ∃ w, (∀ n, runTasks (n + 1) [.member h r.occ.k (.switched entry start adv)] (Work.of u)
          = runTasks n [.ended h r.occ.k (.missed .switch)] w)
      ∧ w.At s o h x (some (r.resolvedTo entry start adv)) (0, 1, 0) :=
  have resolved := a.setRecord (record?_lt _ h r a.record) (some (r.resolvedTo entry start adv))
  after_task (takeMember_switched (Work.of u) h r entry adv start a.record turn) resolved rfl rfl

/-- R50, R142: the last index of a record, lost at the switch: its record ends. -/
theorem run_member_switch_ends (owner : r.owner = o) (link : r.link = none) (binding : r.binding = .followsServing)
    (last : r.remaining = some 0) :
    ∃ v, (Work.of u).run [.member h r.occ.k (.switched entry start adv)] = some v ∧ v.tally = (0, 1, 0)
      ∧ s.Rewrites v.st o h ((x.push ⟨.missed, h, .missedSwitch, 0, 1, s.tb.lt⟩).push
          ⟨.recordEnded, h, .exhausted, 0, low16 r.served, s.tb.lt⟩) none := by
  have inTable := record?_lt _ h r a.record
  obtain ⟨w1, ran1, at1⟩ := member_switched a entry adv start turn
  have told := (at1.rewrites.setRecord inTable
    (some { r.resolvedTo entry start adv with lost := bump r.lost })).post .missed h .missedSwitch 0 1
  have ended := (told.setRecord inTable none).post .recordEnded h .exhausted 0 (low16 r.served)
  subst owner
  obtain ⟨v, ran2, done⟩ := after_task
    (takeEnding_switch_ends w1 h (r.resolvedTo entry start adv) at1.rewrites.record rfl link binding at1.admitting last)
    ended at1.tally at1.admitting
  exact ⟨v, run_of_runTasks 2 _ _ _ ((ran1 1).trans ((ran2 0).trans (runTasks_nil 0 v))) (by decide), done.tally,
    done.rewrites⟩

/-- R142: an index lost at the switch is followed by the next one, which stands GRANTED where it is open. -/
theorem run_member_switch_follows (owner : r.owner = o) (link : r.link = none) (more : r.remaining ≠ some 0)
    (taken : r.takes ((r.occ.k + 1) % 65536) = true) (entry' adv' : Nat) (start' : LocalTime)
    (placed : ∀ t : State, s.Replans t [.rt, .port o.port] → ∀ named, t.resolveFor o r.binding named
      (r.start.atIndex ((r.occ.k + 1) % 65536) (r.period.getD 0)) start r.kind.isTx adv = .found entry' start' adv')
    (opens : s.Opens o h r.profile r.length start') :
    ∃ v, (Work.of u).run [.member h r.occ.k (.switched entry start adv)] = some v ∧ v.tally = (0, 1, 0)
      ∧ s.Rewrites v.st o h (x.push ⟨.missed, h, .missedSwitch, 0, 1, s.tb.lt⟩)
          (some ((({ r.resolvedTo entry start adv with lost := bump r.lost } : Record).nextAt entry' adv' start').standing
            start' s.sc.params.lead)) := by
  have inTable := record?_lt _ h r a.record
  let q : Record := { r.resolvedTo entry start adv with lost := bump r.lost }
  obtain ⟨w1, ran1, at1⟩ := member_switched a entry adv start turn
  have counted := at1.rewrites.setRecord inTable (some q)
  obtain ⟨w2, ran2, at2⟩ := after_task
    (takeEnding_switch_walks w1 h (r.resolvedTo entry start adv) at1.rewrites.record rfl link more)
    counted at1.tally at1.admitting
  have told := (at2.rewrites.setRecord inTable (some (q.nextAt entry' adv' start'))).post .missed h .missedSwitch 0 1
  subst owner
  obtain ⟨w3, ran3, at3⟩ := after_task
    (walkStep_found w2 h q entry' adv' start' at2.rewrites.record rfl taken (opens.farEnough at2.rewrites)
      (placed _ at2.rewrites.frame _))
    told at2.tally at2.admitting
  obtain ⟨v, ran4, done⟩ := at3.offer rfl rfl rfl opens .generated (by decide)
  exact ⟨v, run_of_runTasks 4 _ _ _ ((ran1 3).trans ((ran2 2).trans ((ran3 1).trans ran4))) (by decide), done.tally,
    done.rewrites⟩

end

/-! ### An order with no member or one (R56) -/

theorem reresolve_none (s : State) (named : Record → Nat) : s.reresolve [] named = (s.refreshWindows, []) := rfl

/-- A GRANTED member leaves the timeline before it is resolved. -/
theorem reresolve_granted (s : State) (h : Nat) (r : Record) (named : Record → Nat) (hg : r.occ.state = .granted) :
    let s1 := (s.withdraw [h]).refreshWindows
    s.reresolve [(h, r)] named = (s1, [.member h r.occ.k (s1.resolveMember named (h, r)).placement]) := by
  simp [State.reresolve, hg, insertMember, State.resolveMember]

/-- A WAITING member has no place to leave. -/
theorem reresolve_waiting (s : State) (h : Nat) (r : Record) (named : Record → Nat) (hw : r.occ.state = .waiting) :
    s.reresolve [(h, r)] named
      = (s.refreshWindows, [.member h r.occ.k (s.refreshWindows.resolveMember named (h, r)).placement]) := by
  simp [State.reresolve, hw, insertMember, State.resolveMember, State.withdraw]

end Sys2Proof.Machine
end

section
namespace Sys2Proof.Machine

/-! ### The designations (R145, R150, R151) -/

theorem cell?_clearTriggers (s : State) (o : Owner) (j : Nat) :
    (s.clearTriggers o).cell? j
      = (s.cell? j).map (fun c => if c.owner = o then { c with triggerCount := 0, candidate := false } else c) := by
  simp only [State.cell?, State.clearTriggers, getElem?_mapTable, beq_iff_eq]
  cases s.ct.cells[j]? <;> rfl

theorem cell?_setCellState (s : State) (i j : Nat) (x : CellState) :
    (s.setCellState i x).cell? j = (s.cell? j).map (fun c => { c with state := if j = i then x else c.state }) := by
  simp only [State.setCellState, cell?_updateCell]
  split
  · next same => subst same; rfl
  · exact (Option.map_id' ..).symm

theorem State.Replans.setCellState (s : State) (i : Nat) (x : CellState) : s.Replans (s.setCellState i x) [.ct] := by
  simp only [State.setCellState, State.updateCell]
  split
  · exact .withCt s _
  · exact .refl s _

theorem setCellState_triggers (s : State) (i : Nat) (x : CellState) : (s.setCellState i x).ct.triggers = s.ct.triggers := by
  simp only [State.setCellState, State.updateCell]
  split <;> rfl

/-- `u` is `s` with the cells of `o` redesignated, its trigger counts and candidate flags cleared, its revert window as given
and its handover record NONE: a switch but for its re-resolution and its event (R25, R145, R151). -/
structure State.Designates (s u : State) (o : Owner) (state : Nat → CellState → CellState) (w : Option RevertWindow) : Prop
    where
  frame : s.Replans u [.ct, .hu]
  handover : u.hu.records = s.hu.records.set o none
  revert : u.hu.windows = s.hu.windows.set o w
  cells : ∀ j, u.cell? j = (s.cell? j).map (fun c =>
    if c.owner = o then { c with state := state j c.state, triggerCount := 0, candidate := false }
    else { c with state := state j c.state })
  triggers : u.ct.triggers = s.ct.triggers

/-- Resolution reads an entry's anchor and advance alone. -/
theorem State.Designates.resolveOn {s u : State} {o : Owner} {state : Nat → CellState → CellState}
    {w : Option RevertWindow} (a : s.Designates u o state w) (j : Nat) (time : CellTime) (ref : LocalTime) (tx : Bool)
    (earlier : Nat) : u.resolveOn j time ref tx earlier = s.resolveOn j time ref tx earlier := by
  simp only [State.resolveOn, a.cells]
  cases s.cell? j with
  | none => rfl
  | some c =>
    simp only [Option.map_some]
    split <;> rfl

/-- Cells redesignated; then the window, the triggers and the record as every switch leaves them. -/
theorem designates_of_cells {s t : State} (o : Owner) (state : Nat → CellState → CellState) (w : Option RevertWindow)
    (frame : s.Replans t [.ct]) (cells : ∀ j, t.cell? j = (s.cell? j).map (fun c => { c with state := state j c.state }))
    (triggers : t.ct.triggers = s.ct.triggers) :
    s.Designates (((t.setRevert o w).clearTriggers o).setHandover o none) o state w where
  frame := ((frame.mono (by simp)).trans ((State.Replans.withHu t _).mono (by simp))).trans
    (((State.Replans.withCt (t.setRevert o w) _).mono (by simp)).trans
      ((State.Replans.withHu ((t.setRevert o w).clearTriggers o) _).mono (by simp)))
  handover := by
    have hu := frame.hu (by simp)
    simp [State.setHandover, State.setRevert, hu]
  revert := by
    have hu := frame.hu (by simp)
    simp [State.setHandover, State.setRevert, hu]
  cells := fun j => by
    have cleared := cell?_clearTriggers (t.setRevert o w) o j
    have same : (t.setRevert o w).cell? j = t.cell? j := rfl
    rw [same, cells j, Option.map_map] at cleared
    exact cleared
  triggers := triggers

/-- R145: the old retiring entry becomes NEIGHBOUR, the source RETIRING and the target SERVING. -/
theorem switchOver_designates (s : State) (o : Owner) (ho : Handover) :
    s.Designates (s.switchOver o ho) o
      (fun j old => if j = ho.target then .serving else if j = ho.source then .retiring
        else if (s.revert? o).any (fun v => v.retiring == j) then .neighbour else old)
      (some ⟨plus ho.ts 294912000, ho.source⟩) := by
  unfold State.switchOver
  refine designates_of_cells o _ _ ?_ (fun j => ?_) ?_
  · refine State.Replans.trans ?_ ((State.Replans.setCellState _ _ _).trans (State.Replans.setCellState _ _ _))
    split
    · exact State.Replans.setCellState _ _ _
    · exact .refl s _
  · rw [cell?_setCellState, cell?_setCellState]
    cases s.revert? o with
    | none =>
      rw [Option.map_map]
      rfl
    | some v =>
      rw [cell?_setCellState, Option.map_map, Option.map_map]
      refine Option.map_congr fun c _ => ?_
      simp only [Function.comp_apply, Option.any_some, beq_iff_eq, eq_comm (a := j) (b := v.retiring)]
  · simp only [setCellState_triggers]
    split
    · exact setCellState_triggers _ _ _
    · rfl

/-- R151: the target is SERVING again and the source NEIGHBOUR. -/
theorem switchBack_designates (s : State) (o : Owner) (ho : Handover) :
    s.Designates (s.switchBack o ho) o
      (fun j old => if j = ho.source then .neighbour else if j = ho.target then .serving else old) none := by
  unfold State.switchBack
  refine designates_of_cells o _ _ ?_ (fun j => ?_) ?_
  · exact (State.Replans.setCellState _ _ _).trans (State.Replans.setCellState _ _ _)
  · rw [cell?_setCellState, cell?_setCellState, Option.map_map]
    rfl
  · rw [setCellState_triggers, setCellState_triggers]

/-! ### The members of a switch (R146) -/

/-- A follower of an owner that waits on an entry. -/
def Record.waitsOn (r : Record) (o : Owner) (entry : Nat) : Prop :=
  r.owner = o ∧ r.binding = .followsServing ∧ r.occ.entry = entry ∧ r.occ.state = .waiting

/-- The followers of an owner WAITING on an entry (R146). -/
def State.waitingOn (s : State) (o : Owner) (entry : Nat) : List (Nat × Record) :=
  (s.followersOn o entry).filter (fun x => x.2.occ.state == .waiting)

theorem waitingOn_eq (s : State) (o : Owner) (entry : Nat) :
    s.waitingOn o entry = s.recordList.filter (fun x => x.2.owner == o && x.2.binding == .followsServing
      && x.2.occ.entry == entry && x.2.occ.state == .waiting) := by
  simp only [State.waitingOn, State.followersOn, State.membersOn, List.filter_filter]
  refine List.filter_congr fun x _ => ?_
  grind

theorem waitingOn_none (s : State) (o : Owner) (entry : Nat) (h : ∀ k q, s.record? k = some q → ¬q.waitsOn o entry) :
    s.waitingOn o entry = [] := by
  rw [waitingOn_eq]
  exact recordList_filter_none s _ fun k q hq => by
    have waits := h k q hq
    simp only [Record.waitsOn] at waits
    simpa [and_assoc] using waits

theorem waitingOn_one (s : State) (o : Owner) (entry h : Nat) (r : Record) (hr : s.record? h = some r)
    (waits : r.waitsOn o entry) (only : ∀ k q, k ≠ h → s.record? k = some q → ¬q.waitsOn o entry) :
    s.waitingOn o entry = [(h, r)] := by
  rw [waitingOn_eq]
  refine recordList_filter_one s _ h r hr ?_ fun k q hk hq => ?_
  · obtain ⟨owner, binding, entry, state⟩ := waits
    simp [owner, binding, entry, state]
  · have other := only k q hk hq
    simp only [Record.waitsOn] at other
    simpa [and_assoc] using other

theorem resolveWaiting_none (s : State) (o : Owner) (ho : Handover) (h : s.waitingOn o ho.source = []) :
    s.resolveWaiting o ho = some s.refreshWindows := by
  unfold State.waitingOn at h
  simp only [State.resolveWaiting, h, reresolve_none, run_nil, Option.map_some]
  rfl

/-- R146, R56: the one follower that waits on the source, resolved on the target, stands GRANTED there. -/
theorem resolveWaiting_one (s : State) (o : Owner) (ho : Handover) (h adv : Nat) (r : Record) (start : LocalTime)
    (hr : s.record? h = some r) (one : s.waitingOn o ho.source = [(h, r)]) (noHandover : s.handover? o = none)
    (waits : r.waitsOn o ho.source) (taken : r.occ.taken = true)
    (found : s.resolveOn ho.target (r.start.atIndex r.occ.k (r.period.getD 0)) s.tb.lt r.kind.isTx 0 = .found start adv)
    (opens : s.Opens o h r.occ.profile r.occ.remaining start) :
    ∃ u, s.resolveWaiting o ho = some u ∧ s.Rewrites u o h (s.port o.port)
      (some ((r.resolvedTo ho.target start adv).standing start s.sc.params.lead)) := by
  obtain ⟨owner, binding, -, state⟩ := waits
  unfold State.waitingOn at one
  have base : s.Rewrites s.refreshWindows o h (s.port o.port) (some r) := hr ▸ (State.Rewrites.refl s o h).refreshWindows
  have noHandover' : s.refreshWindows.handover? o = none := noHandover
  have placement : (s.refreshWindows.resolveMember (fun _ => ho.target) (h, r)).placement = .found ho.target start adv := by
    have found' := (resolveOn_congr (s := s) (t := s.refreshWindows) rfl _ _ _ _ _).trans found
    simp only [State.resolveMember, State.resolveFor, owner, binding, noHandover']
    exact congrArg (Resolution.onEntry · ho.target) found'
  obtain ⟨v, run, -, rewrites⟩ := run_member_granted base ho.target adv start (.inr ⟨state, taken⟩) owner opens
  refine ⟨v.st, ?_, rewrites⟩
  simp only [State.resolveWaiting, one, reresolve_waiting s h r _ state, placement, run, Option.map_some]

/-! ### The rows of a switch and of the close -/

theorem exec_handoverSwitch {s : State} {o : Owner} {ho : Handover} (hh : s.handover? o = some ho)
    (counting : s.counting = true) (reached : s.reached ho.ts = true) (kind : ho.kind = .handover) :
    exec (.handoverSwitch o) s = s.cascade true (((s.switchOver o ho).resolveWaiting o ho).map
      (·.postSwitched o ho (((s.revert? o).map (·.retiring)).getD 255))) := by
  have due : s.switchDue o .handover = some ho := by simp [State.switchDue, hh, counting, reached, kind]
  have row : exec (.handoverSwitch o) s = execHandoverSwitch o s := rfl
  simp only [row, execHandoverSwitch, due, State.takeSwitch]
  cases s.revert? o <;> rfl

theorem exec_revertSwitch {s : State} {o : Owner} {ho : Handover} (hh : s.handover? o = some ho)
    (counting : s.counting = true) (reached : s.reached ho.ts = true) (kind : ho.kind = .revert) :
    exec (.revertSwitch o) s = s.cascade true (((s.switchBack o ho).resolveWaiting o ho).map (·.postSwitched o ho 255)) := by
  have due : s.switchDue o .revert = some ho := by simp [State.switchDue, hh, counting, reached, kind]
  have row : exec (.revertSwitch o) s = execRevertSwitch o s := rfl
  simp only [row, execRevertSwitch, due, State.takeRevert]

/-- What a row that takes a switch leaves (R145, R151): the designations moved, the record NONE, SWITCHED posted, and
beside that the listed parts and what `ok` says of them. -/
def State.Switched (s : State) (o : Owner) (ho : Handover) (parts : List Block) (ok : State → Prop) (i : Instr)
    (state : Nat → CellState → CellState) (w : Option RevertWindow) (third : Nat) : Prop :=
  ∃ t, exec i s = .next t ∧ t.handover? o = none ∧ t.handover? o.other = s.handover? o.other
    ∧ t.revert? o = w ∧ t.revert? o.other = s.revert? o.other
    ∧ (∀ j, t.cell? j = (s.cell? j).map (fun c =>
        if c.owner = o then { c with state := state j c.state, triggerCount := 0, candidate := false }
        else { c with state := state j c.state }))
    ∧ t.ct.triggers = s.ct.triggers ∧ ok t
    ∧ t.port o.port = (s.port o.port).push
        ⟨.switched, ho.target, .none, switchedFlags (ho.kind == .revert) ho.clamped, low16 (ho.source + 256 * third),
          s.tb.lt⟩
    ∧ s.replannedExcept t (.ct :: .hu :: .port o.port :: parts)

section
variable {s u v : State} {o : Owner} {ho : Handover} {i : Instr} {state : Nat → CellState → CellState}
  {w : Option RevertWindow} {third : Nat} {parts : List Block}

/-- The end of a switch whose re-resolution has run: SWITCHED is posted, and the step is settled. -/
theorem switch_settles (row : exec i s = s.cascade true ((u.resolveWaiting o ho).map (·.postSwitched o ho third)))
    (designates : s.Designates u o state w) (ran : u.resolveWaiting o ho = some v) (frame : u.Replans v (.port o.port :: parts))
    (keeps : ∀ b ∈ parts, b = .rt) (port : v.port o.port = u.port o.port)
    (quiet : s.active? = none ∨ v.active? ≠ none) (ok : State → Prop) (holds : ∀ t : State, t.rt = v.rt → ok t) :
    s.Switched o ho parts ok i state w third := by
  have absent : ∀ b, b ≠ .rt → b ∉ parts := fun b hb hm => hb (keeps b hm)
  have whole : s.Replans v (.ct :: .hu :: .port o.port :: parts) :=
    (designates.frame.mono (by simp)).trans (frame.mono fun _ hb => List.mem_cons_of_mem _ (List.mem_cons_of_mem _ hb))
  let v' := v.postSwitched o ho third
  have quiet' : s.active? = none ∨ v'.active? ≠ none := by rwa [active?_congr v v' rfl]
  obtain ⟨t, step, ⟨ct, rt, -, hu⟩, ports, replanned⟩ := cascade_settles quiet'
    (whole.trans ((State.Replans.post v o .switched ho.target .none _ _).mono (by simp)))
  have ctU : t.ct = u.ct := ct.trans (frame.ct (by simp [absent]))
  have huU : t.hu = u.hu := hu.trans (frame.hu (by simp [absent]))
  refine ⟨t, ?_, ?_, ?_, ?_, ?_, fun j => ?_, ?_, holds t rt, ?_, replanned⟩
  · rw [row, ran]
    exact step
  all_goals try simp only [State.handover?, State.revert?, huU, designates.handover, designates.revert, PerOwner.get_set,
    if_true, Owner.other_ne, if_false]
  · rw [cell?_congr u t ctU]
    exact designates.cells j
  · rw [ctU]
    exact designates.triggers
  · rw [ports]
    refine (port_post v o _ _ _ _ _ _).trans ?_
    rw [if_pos rfl, port, designates.frame.port _ (by simp), frame.tb (by simp [absent]), designates.frame.tb (by simp)]

/-- A switch that finds no follower waiting on the source. -/
theorem switch_without_member (row : exec i s = s.cascade true ((u.resolveWaiting o ho).map (·.postSwitched o ho third)))
    (designates : s.Designates u o state w) (nobody : ∀ h r, s.record? h = some r → ¬r.waitsOn o ho.source) :
    s.Switched o ho [] (fun _ => True) i state w third := by
  have records : u.rt = s.rt := designates.frame.rt (by simp)
  refine switch_settles row designates (resolveWaiting_none u o ho (waitingOn_none u o ho.source fun k q hq => ?_))
    (.refreshWindows u _) (by simp) rfl (quiet_of_rt records) _ fun _ _ => trivial
  rw [record?_congr s u records] at hq
  exact nobody k q hq

/-- A switch that finds one follower waiting on the source, whose start on the target is open. -/
theorem switch_with_member (row : exec i s = s.cascade true ((u.resolveWaiting o ho).map (·.postSwitched o ho third)))
    (designates : s.Designates u o state w)
    (h adv : Nat) (r : Record) (start : LocalTime) (hr : s.record? h = some r) (waits : r.waitsOn o ho.source)
    (only : ∀ k q, k ≠ h → s.record? k = some q → ¬q.waitsOn o ho.source) (taken : r.occ.taken = true)
    (found : s.resolveOn ho.target (r.start.atIndex r.occ.k (r.period.getD 0)) s.tb.lt r.kind.isTx 0 = .found start adv)
    (opens : s.Opens o h r.occ.profile r.occ.remaining start) :
    s.Switched o ho [.rt] (fun t => (∀ k, k ≠ h → t.record? k = s.record? k) ∧ t.record? h = some
      ((r.resolvedTo ho.target start adv).standing start s.sc.params.lead)) i state w third := by
  have records := record?_congr s u (designates.frame.rt (by simp))
  have tb := designates.frame.tb (by simp)
  have noHandover : u.handover? o = none := by
    simp only [State.handover?, designates.handover, PerOwner.get_set, if_true]
  have one := waitingOn_one u o ho.source h r ((records h).trans hr) waits fun k q hk hq =>
    only k q hk ((records k).symm.trans hq)
  obtain ⟨v, ran, rewrites⟩ := resolveWaiting_one u o ho h adv r start ((records h).trans hr) one noHandover waits taken
    (by rw [designates.resolveOn, tb, found]) (opens.of_replans designates.frame (by simp))
  have idle : ∀ q, u.record? h = some q → q.occ.state ≠ .active := fun q hq => by
    rw [records, hr] at hq
    cases hq
    rw [waits.2.2.2]
    decide
  have quiet : s.active? = none ∨ v.active? ≠ none := by
    rw [← active?_congr s u (designates.frame.rt (by simp))]
    exact rewrites.quiet idle
  refine switch_settles row designates ran (rewrites.frame.mono (by simp)) (by simp) rewrites.port quiet _ fun t rt =>
    ⟨fun k hk => ?_, ?_⟩
  · rw [record?_congr v t rt, rewrites.others k hk, records]
  · rw [record?_congr v t rt, rewrites.record, designates.frame.sc]

end

/-- R150: at the close LT the retiring entry becomes NEIGHBOUR, the window CLOSED, and REVERT_CLOSED is posted. -/
theorem revertClose_closes (s : State) (o : Owner) (v : RevertWindow) (hv : s.revert? o = some v)
    (counting : s.counting = true) (reached : s.reached v.closeLt = true) :
    ∃ t, exec (.revertClose o) s = .next t ∧ t.revert? o = none ∧ t.revert? o.other = s.revert? o.other
      ∧ t.hu.records = s.hu.records
      ∧ (∀ j, t.cell? j = (s.cell? j).map (fun c => if j = v.retiring then { c with state := .neighbour } else c))
      ∧ t.ct.triggers = s.ct.triggers
      ∧ t.port o.port = (s.port o.port).push ⟨.revertClosed, v.retiring, .none, 0, 0, s.tb.lt⟩
      ∧ s.replannedExcept t [.ct, .hu, .port o.port] := by
  let u := s.setCellState v.retiring .neighbour
  have moved : s.Replans u [.ct] := State.Replans.setCellState s v.retiring .neighbour
  have closed : s.Replans (s.closeRevert o v) [.ct, .hu, .port o.port] :=
    (moved.mono (by simp)).trans (((State.Replans.withHu u _).mono (by simp)).trans
      ((State.Replans.post (u.setRevert o none) o .revertClosed v.retiring .none 0 0).mono (by simp)))
  have quiet : s.active? = none ∨ (s.closeRevert o v).active? ≠ none := quiet_of_rt (closed.rt (by simp))
  obtain ⟨⟨ct, -, -, hu⟩, ports⟩ := settle_holds s _ quiet
  have due : s.closeDue o = some v := by simp [State.closeDue, hv, counting, reached]
  have row : exec (.revertClose o) s = s.event ((s.closeDue o).map (s.closeRevert o)) := rfl
  have huU : (State.settle s (s.closeRevert o v)).hu = { s.hu with windows := s.hu.windows.set o none } :=
    hu.trans (congrArg (fun x : HandoverUnit => { x with windows := x.windows.set o none }) (moved.hu (by simp)))
  refine ⟨State.settle s (s.closeRevert o v), ?_, ?_, ?_, ?_, fun j => ?_, ?_, ?_, closed.settled quiet⟩
  · rw [row, due]
    rfl
  · simp [State.revert?, huU]
  · simp [State.revert?, huU]
  · rw [huU]
  · rw [cell?_congr _ _ ct]
    refine (cell?_setCellState s v.retiring j .neighbour).trans (Option.map_congr fun c _ => ?_)
    split <;> rfl
  · rw [ct]
    exact setCellState_triggers s v.retiring .neighbour
  · rw [ports]
    refine (port_post (u.setRevert o none) o _ _ _ _ _ _).trans ?_
    have lt : (u.setRevert o none).tb = s.tb := moved.tb (by simp)
    have port : (u.setRevert o none).port o.port = s.port o.port := moved.port _ (by simp)
    rw [if_pos rfl, lt, port]

/-- Settles O47: each switch redesignates the cells and re-resolves what waits on the source; the close only redesignates. -/
theorem switchAndCloseMoveTheDesignations : Obligations.SwitchAndCloseMoveTheDesignations := by
  refine ⟨fun s o ho hh counting reached => ?_, fun s o v hv counting reached => ?_⟩
  · have switchRow := exec_handoverSwitch hh counting reached
    have revertRow := exec_revertSwitch hh counting reached
    have designatesOver := switchOver_designates s o ho
    have designatesBack := switchBack_designates s o ho
    refine ⟨fun nobody => ⟨fun kind => ?_, fun kind => ?_⟩,
      fun h adv r start hr waits only taken found far ahead free => ⟨fun kind => ?_, fun kind => ?_⟩⟩
    · exact switch_without_member (switchRow kind) designatesOver nobody
    · exact switch_without_member (revertRow kind) designatesBack nobody
    · exact switch_with_member (switchRow kind) designatesOver h adv r start hr waits only taken found ⟨far, ahead, free⟩
    · exact switch_with_member (revertRow kind) designatesBack h adv r start hr waits only taken found ⟨far, ahead, free⟩
  · exact revertClose_closes s o v hv counting reached

end Sys2Proof.Machine
end

section
namespace Sys2Proof.Machine

/-! ### HANDOVER CANCEL (R147) -/

theorem exec_handoverCancel (p : Port) (s : State) :
    exec (.handoverCancel p) s = s.planCommand p (.handoverCancel p) (fun t =>
      withOwnerReply p t (fun o => t.handoverCancel o)) := rfl

theorem followersOn_none (s : State) (o : Owner) (entry : Nat)
    (h : ∀ k q, s.record? k = some q → q.owner = o → q.binding = .followsServing → q.occ.entry = entry →
      q.occ.state ≠ .granted ∧ q.occ.state ≠ .waiting) : s.followersOn o entry = [] := by
  simp only [State.followersOn, State.membersOn, List.filter_filter]
  exact recordList_filter_none s _ fun k q hq => by
    have absent := h k q hq
    simp only [Bool.and_eq_false_iff, beq_eq_false_iff_ne, Bool.or_eq_false_iff]
    grind

/-- R147: with nothing on the target, the record alone goes. -/
theorem handoverCancel_alone (s : State) (o : Owner) (ho : Handover) (hh : s.handover? o = some ho)
    (nobody : s.followersOn o ho.target = []) :
    s.handoverCancel o = some (accept (s.setHandover o none).refreshWindows [0, 0, 0, 0, 0, 0]) := by
  have nobody' : (s.setHandover o none).followersOn o ho.target = [] := nobody
  have zero : (Work.of (s.setHandover o none).refreshWindows).counts = [0, 0, 0, 0, 0, 0] :=
    (counts_of_tally (moved := 0) (missed := 0) (lost := 0) rfl).trans (by decide)
  simp only [State.handoverCancel, hh, State.undoHandover, nobody', reresolve_none, run_nil, Option.map_some, zero]
  rfl

/-- R147: a cancelled handover leaves the record NONE and three zero counts. -/
theorem handoverCancel_withdraws {s : State} {o : Owner} {n : Nat} {ho : Handover}
    (executes : s.executes o.port n (.handoverCancel o.port)) (hh : s.handover? o = some ho)
    (nobody : s.followersOn o ho.target = []) :
    ∃ t, exec (.handoverCancel o.port) s = .next t ∧ t.handover? o = none
      ∧ t.handover? o.other = s.handover? o.other ∧ t.hu.windows = s.hu.windows
      ∧ t.port o.port = (s.port o.port).answered n .ok [0, 0, 0, 0, 0, 0]
      ∧ s.replannedExcept t [.hu, .port o.port] := by
  have frame : s.Replans (s.setHandover o none).refreshWindows [.hu, .port o.port] :=
    ((State.Replans.withHu s _).mono (by simp)).trans (.refreshWindows _ _)
  obtain ⟨t, step, ⟨-, -, -, hu⟩, port, replanned⟩ := planCommand_settles executes
    (body := fun t => withOwnerReply o.port t (fun o => t.handoverCancel o))
    ((withOwnerReply_port o s _).trans (handoverCancel_alone s o ho hh nobody)) rfl (quiet_of_rt rfl) frame (by simp)
  refine ⟨t, (exec_handoverCancel o.port s).trans step, ?_, ?_, ?_, port, replanned⟩
  · exact (handover?_congr _ t hu o).trans ((handover?_setHandover s o o none).trans (if_pos rfl))
  · exact (handover?_congr _ t hu o.other).trans ((handover?_setHandover s o o.other none).trans (if_neg (Owner.other_ne o)))
  · rw [hu]
    rfl

/-! ### Straddling exchanges (R143) -/

theorem atOrBefore_of_before {a b : LocalTime} (h : before a b = true) : atOrBefore b a = false := by
  have back := ticksTo_between a b a
  rw [ticksTo_self] at back
  simp only [before, Bool.and_eq_true, decide_eq_true_eq] at h
  have apart : b ≠ a := by
    rintro rfl
    rw [ticksTo_self] at h
    omega
  simp only [atOrBefore, before, beq_false_of_ne apart, Bool.false_or, Bool.and_eq_false_iff, decide_eq_false_iff_not]
  omega

/-- An exchange of an owner on an entry that lies neither wholly before Ts nor wholly after it. -/
def State.straddles (s : State) (o : Owner) (entry : Nat) (ts : LocalTime) (x : Exchange) : Bool :=
  x.owner == o && x.entry == entry && !s.exchangeBefore x ts && !s.exchangeAfter x ts

section
variable (w : Work) (o : Owner) (entry : Nat) (ts : LocalTime)

theorem abandonStraddling_stays (i : Nat) (x : Exchange) (rest : List (Nat × Exchange))
    (h : w.st.straddles o entry ts x = false) :
    w.abandonStraddling o entry ts ((i, x) :: rest) = w.abandonStraddling o entry ts rest := by
  unfold State.straddles at h
  simp [Work.abandonStraddling, h]

theorem abandonStraddling_abandons (i : Nat) (x : Exchange) (rest : List (Nat × Exchange))
    (h : w.st.straddles o entry ts x = true) :
    let done := (w.abandon i (w.st.straddlingStep x ts) .straddling none true).abandonStraddling o entry ts rest
    w.abandonStraddling o entry ts ((i, x) :: rest) = (done.1, done.2 + 1) := by
  unfold State.straddles at h
  simp only [Work.abandonStraddling, h, if_true]

theorem abandonStraddling_append (l rest : List (Nat × Exchange))
    (h : ∀ y ∈ l, w.st.straddles o entry ts y.2 = false) :
    w.abandonStraddling o entry ts (l ++ rest) = w.abandonStraddling o entry ts rest := by
  induction l with
  | nil => rfl
  | cons y ys ih =>
    rw [List.cons_append, abandonStraddling_stays w o entry ts y.1 y.2 _ (h y (by simp)),
      ih fun z hz => h z (List.mem_cons_of_mem _ hz)]

theorem abandonStraddling_none (l : List (Nat × Exchange)) (h : ∀ y ∈ l, w.st.straddles o entry ts y.2 = false) :
    w.abandonStraddling o entry ts l = (w, 0) := by
  have all := abandonStraddling_append w o entry ts l [] h
  rwa [List.append_nil] at all

end

/-- The last step of an exchange ends at or before Ts (R143). -/
def State.endsBy (s : State) (x : Exchange) (ts : LocalTime) : Prop :=
  ∃ y m, x.steps.getLast? = some y ∧ s.stepNominal y = some m ∧ atOrBefore (plus m y.length) ts = true

/-- An exchange of an owner on an entry lies wholly before Ts. -/
def State.staysQuiet (s : State) (o : Owner) (entry : Nat) (ts : LocalTime) (x : Exchange) : Prop :=
  x.owner = o → x.entry = entry → s.endsBy x ts

theorem straddles_of_staysQuiet {s : State} {o : Owner} {entry : Nat} {ts : LocalTime} {x : Exchange}
    (h : s.staysQuiet o entry ts x) : s.straddles o entry ts x = false := by
  by_cases mine : x.owner = o ∧ x.entry = entry
  · obtain ⟨y, m, last, nominal, inTime⟩ := h mine.1 mine.2
    simp [State.straddles, State.exchangeBefore, last, nominal, inTime]
  · simp only [State.straddles, Bool.and_eq_false_iff, beq_eq_false_iff_ne]
    exact .inl (.inl (Decidable.not_and_iff_not_or_not.mp mine))

theorem stepNominal_congr {s t : State} {y : Step} (h : ∀ k, y.handle = some k → t.record? k = s.record? k) :
    t.stepNominal y = s.stepNominal y := by
  unfold State.stepNominal
  cases hy : y.handle with
  | none => rfl
  | some k => simp only [Option.bind_some, h k hy]

theorem staysQuiet_congr {s t : State} {o : Owner} {entry : Nat} {ts : LocalTime} {x : Exchange}
    (a : s.staysQuiet o entry ts x) (h : ∀ y ∈ x.steps, ∀ k, y.handle = some k → t.record? k = s.record? k) :
    t.staysQuiet o entry ts x := fun owner on => by
  obtain ⟨y, m, last, nominal, inTime⟩ := a owner on
  exact ⟨y, m, last, (stepNominal_congr (h y (List.mem_of_getLast? last))).trans nominal, inTime⟩

/-- The nominal end of a step lies after Ts. -/
def State.endsAfter (s : State) (ts : LocalTime) (y : Step) : Prop :=
  ∃ m, s.stepNominal y = some m ∧ before ts (plus m y.length) = true

/-- R143: an exchange whose last step ends after Ts and whose first does not start at or after it straddles. -/
theorem straddles_of_ends {s : State} {x : Exchange} {ts : LocalTime} {last : Step}
    (hl : x.steps.getLast? = some last) (after' : s.endsAfter ts last)
    (first : ∀ z m, x.steps.head? = some z → s.stepNominal z = some m → before m ts = true) :
    s.straddles x.owner x.entry ts x = true := by
  obtain ⟨m, nominal, ends⟩ := after'
  have notBefore : s.exchangeBefore x ts = false := by
    simp only [State.exchangeBefore, hl, nominal, atOrBefore_of_before ends]
  have notAfter : s.exchangeAfter x ts = false := by
    unfold State.exchangeAfter
    cases hh : x.steps.head? with
    | none => rfl
    | some z =>
      cases hz : s.stepNominal z with
      | none => simp [hz]
      | some k => simp [hz, first z k hh hz]
  simp [State.straddles, notBefore, notAfter]

/-- The failing step is the lowest that has not ended DONE and ends after Ts. -/
theorem straddlingStep_eq {s : State} {x : Exchange} {ts : LocalTime} {j : Nat} {y : Step} (hy : x.steps[j]? = some y)
    (notDone : y.ending ≠ some .done) (after' : s.endsAfter ts y)
    (below : ∀ k z, k < j → x.steps[k]? = some z → z.ending = some .done ∨ ¬s.endsAfter ts z) :
    s.straddlingStep x ts = j := by
  have fails : ∀ z : Step, (!(z.ending == some .done) && match s.stepNominal z with
      | some n => before ts (plus n z.length)
      | none => false) = true ↔ z.ending ≠ some .done ∧ s.endsAfter ts z := fun z => by
    cases hz : s.stepNominal z <;> simp [State.endsAfter, hz]
  obtain ⟨inList, at'⟩ := List.getElem?_eq_some_iff.mp hy
  have first : x.steps.findIdx? (fun z => !(z.ending == some .done) && match s.stepNominal z with
      | some n => before ts (plus n z.length)
      | none => false) = some j :=
    List.findIdx?_eq_some_iff_getElem.mpr ⟨inList, (fails _).mpr (at' ▸ ⟨notDone, after'⟩), fun k hk failing => by
      obtain ⟨undone, ends⟩ := (fails _).mp failing
      rcases below k _ hk (List.getElem?_eq_getElem (by omega)) with done | early
      · exact undone done
      · exact early ends⟩
  exact congrArg (Option.getD · x.lowestNotDone) first

/-! ### The abandonment of an exchange without an ACTIVE step (R127, R128, R143) -/

theorem endOtherStep_idle (s : State) (h i : Nat) (idle : ∀ r, s.record? h = some r →
      (r.link = some (.exchange i) ∧ r.binding = .followsServing) ∧ r.occ.state ≠ .active) :
    (s.endOtherStep h).2 = .cancelled
      ∧ ((s.endOtherStep h).1.exchange? i).map (·.done) = (s.exchange? i).map (·.done) := by
  cases hr : s.record? h with
  | none => simp [State.endOtherStep, hr]
  | some r =>
    obtain ⟨⟨link, binding⟩, inactive⟩ := idle r hr
    have same : (s.setRecord h none).exchange? i = s.exchange? i := rfl
    simp only [State.endOtherStep, hr, inactive, beq_iff_eq, if_false, removeRecord_step s h i r hr link binding,
      exchange?_updateExchange, if_true, same, Option.map_map]
    exact ⟨trivial, rfl⟩

/-- Ending steps none of which is ACTIVE cuts nothing, and counts none as done. -/
theorem endSteps_idle (s : State) (i : Nat) (l : List (Nat × Nat)) (cut : Bool) (idle : ∀ h ∈ l.map (·.2), ∀ r,
      s.record? h = some r → (r.link = some (.exchange i) ∧ r.binding = .followsServing) ∧ r.occ.state ≠ .active) :
    (s.endSteps i none l cut).2 = cut
      ∧ ((s.endSteps i none l cut).1.exchange? i).map (·.done) = (s.exchange? i).map (·.done) := by
  induction l generalizing s cut with
  | nil => exact ⟨rfl, rfl⟩
  | cons x rest ih =>
    obtain ⟨j, h⟩ := x
    have here := idle h (by simp)
    obtain ⟨cancelled, counted⟩ := endOtherStep_idle s h i here
    have ended := (StepsEnded.endOtherStep s h i here).trans
      (StepsEnded.updateExchange _ i (fun x => x.endStep j (s.endOtherStep h).2))
    obtain ⟨uncut, rest'⟩ := ih ((s.endOtherStep h).1.updateExchange i (fun x => x.endStep j (s.endOtherStep h).2))
      (cut || (s.endOtherStep h).2 == .cut) fun k hk r hr => idle k (by simp [hk]) r (by
        rw [ended.records] at hr
        grind)
    refine ⟨uncut.trans (by simp [cancelled]), rest'.trans ?_⟩
    rw [exchange?_updateExchange, if_pos rfl, Option.map_map, ← counted]
    rfl

/-- R127, R128: an exchange without an ACTIVE step is abandoned, and EXCH_ABANDONED tells of it. -/
theorem abandon_announced (w : Work) (i failing : Nat) (reason : Reason) (x : Exchange)
    (hx : w.st.exchange? i = some x) (free : w.submitting = none) (idle : ∀ h ∈ x.liveSteps.map (·.2), ∀ r,
      w.st.record? h = some r → (r.link = some (.exchange i) ∧ r.binding = .followsServing) ∧ r.occ.state ≠ .active) :
    (w.abandon i failing reason none true).st
      = ((w.st.endSteps i none x.liveSteps false).1.post x.owner .exchAbandoned i reason
          (flagBits [x.cancelPending, false]) (low16 (failing + 256 * x.done))).setExchange i none := by
  obtain ⟨uncut, counted⟩ := endSteps_idle w.st i x.liveSteps false idle
  have done : (((w.st.endSteps i none x.liveSteps false).1.exchange? i).getD x).done = x.done := by
    rw [hx, Option.map_some] at counted
    obtain ⟨z, hz, same⟩ := Option.map_eq_some_iff.mp counted
    rw [hz]
    exact same
  simp [Work.abandon, hx, free, uncut, done, exchAbandonedFlags]

/-- `t` is `s` with exchange `i` and the records of its steps gone, and the port of `o` as given. -/
structure State.Abandons (s t : State) (o : Owner) (i : Nat) (x : Exchange) (port : PortState) : Prop where
  frame : s.Replans t [.port o.port, .rt, .su]
  port : t.port o.port = port
  calls : t.su.calls = s.su.calls
  exchange : t.exchange? i = none
  exchanges : ∀ k, k ≠ i → t.exchange? k = s.exchange? k
  gone : ∀ z ∈ x.steps, ∀ h, z.handle = some h → t.record? h = none
  kept : ∀ h, (∀ z ∈ x.steps, z.handle ≠ some h) → t.record? h = s.record? h

theorem State.Abandons.refreshWindows {s t : State} {o : Owner} {i : Nat} {x : Exchange} {port : PortState}
    (a : s.Abandons t o i x port) : s.Abandons t.refreshWindows o i x port :=
  ⟨a.frame.trans (.refreshWindows t _), a.port, a.calls, a.exchange, a.exchanges, a.gone, a.kept⟩

theorem abandon_abandons (w : Work) (i failing : Nat) (reason : Reason) (x : Exchange)
    (hx : w.st.exchange? i = some x) (free : w.submitting = none) (idle : ∀ z ∈ x.steps, ∀ h, z.handle = some h →
      ∀ r, w.st.record? h = some r → (r.link = some (.exchange i) ∧ r.binding = .followsServing)
        ∧ r.occ.state ≠ .active) :
    w.st.Abandons (w.abandon i failing reason none true).st x.owner i x ((w.st.port x.owner.port).push
      ⟨.exchAbandoned, i, reason, flagBits [x.cancelPending, false], low16 (failing + 256 * x.done), w.st.tb.lt⟩) := by
  have live : ∀ h ∈ x.liveSteps.map (·.2), ∀ r, w.st.record? h = some r →
      (r.link = some (.exchange i) ∧ r.binding = .followsServing) ∧ r.occ.state ≠ .active := fun h hl r hr =>
    have ⟨z, hz, handle⟩ := (mem_liveSteps_handle x h).mp hl
    idle z hz h handle r hr
  have steps := StepsEnded.endSteps w.st i x.liveSteps false live
  rw [abandon_announced w i failing reason x hx free live]
  generalize (w.st.endSteps i none x.liveSteps false).1 = e at steps
  obtain ⟨tb, -, -, -, wc, -, -, sc, ports, -⟩ := steps.same
  have ended : w.st.Replans e [.port x.owner.port, .rt, .su] :=
    .of_same (sameExcept_mono (by simp) steps.same) (wc (by simp)) (sc (by simp))
  refine ⟨ended.trans (((State.Replans.post e x.owner _ _ _ _ _).mono (by simp)).trans
    ((State.Replans.setExchange _ i none).mono (by simp))), ?_, steps.calls, ?_, fun k hk => ?_, fun z hz h hh => ?_,
    fun h none => ?_⟩
  · refine (port_post e x.owner _ _ _ _ _ _).trans ?_
    rw [if_pos rfl, tb (by simp), ports _ (by simp)]
  · rw [exchange?_setExchange, if_pos ⟨rfl, exchange?_lt _ i x hx⟩]
  · rw [exchange?_setExchange, if_neg fun both => hk both.1]
    exact steps.exchanges k hk
  · exact (steps.records h).trans (if_pos ((mem_liveSteps_handle x h).mpr ⟨z, hz, hh⟩))
  · exact (steps.records h).trans (if_neg fun hl =>
      have ⟨z, hz, hh⟩ := (mem_liveSteps_handle x h).mp hl
      none z hz hh)

/-- R143: the one exchange that straddles is abandoned and counted; those wholly before Ts stay. -/
theorem abandonStraddling_one (s : State) (ts : LocalTime) (i failing : Nat) (x : Exchange) (hx : s.exchange? i = some x)
    (straddles : s.straddles x.owner x.entry ts x = true) (step : s.straddlingStep x ts = failing)
    (idle : ∀ z ∈ x.steps, ∀ h, z.handle = some h → ∀ r, s.record? h = some r →
      (r.link = some (.exchange i) ∧ r.binding = .followsServing) ∧ r.occ.state ≠ .active)
    (others : ∀ k z, k ≠ i → s.exchange? k = some z → s.staysQuiet x.owner x.entry ts z
      ∧ ∀ y ∈ z.steps, ∀ h, y.handle = some h → ∀ y' ∈ x.steps, y'.handle ≠ some h) :
    ∃ w, (Work.of s).abandonStraddling x.owner x.entry ts s.exchangeList = (w, 1)
      ∧ s.Abandons w.st x.owner i x ((s.port x.owner.port).push ⟨.exchAbandoned, i, .straddling,
          flagBits [x.cancelPending, false], low16 (failing + 256 * x.done), s.tb.lt⟩) := by
  obtain ⟨l1, l2, list, rest⟩ := tableList_split s.su.exchanges i x ((mem_exchangeList s i x).mpr hx)
  have abandons := abandon_abandons (Work.of s) i failing .straddling x hx rfl idle
  have other : ∀ y ∈ l1 ++ l2, _ := fun y hy =>
    have ⟨hne, mem⟩ := rest y.1 y.2 hy
    others y.1 y.2 hne ((mem_exchangeList s y.1 y.2).mp mem)
  have front := abandonStraddling_append (Work.of s) x.owner x.entry ts l1 ((i, x) :: l2) fun y hy =>
    straddles_of_staysQuiet (other y (List.mem_append_left _ hy)).1
  have here := abandonStraddling_abandons (Work.of s) x.owner x.entry ts i x l2 straddles
  have back := abandonStraddling_none ((Work.of s).abandon i failing .straddling none true) x.owner x.entry ts l2
    fun y hy => by
      obtain ⟨quiet, apart⟩ := other y (List.mem_append_right _ hy)
      exact straddles_of_staysQuiet (staysQuiet_congr quiet fun z hz h hh => abandons.kept h (apart z hz h hh))
  refine ⟨_, ?_, abandons⟩
  rw [show (Work.of s).st.straddlingStep x ts = failing from step, back] at here
  exact (congrArg _ list).trans (front.trans here)

end Sys2Proof.Machine
end

section
namespace Sys2Proof.Machine

/-! ### Acceptance (R137 to R144, R151) -/

theorem exec_handover (p : Port) (target : Nat) (time : CellTime) (s : State) :
    exec (.handover p target time) s = s.planCommand p (.handover p target time) (fun t =>
      withOwnerReply p t (fun o => t.handover o target time)) := rfl

theorem exec_handoverRevert (p : Port) (time : CellTime) (s : State) :
    exec (.handoverRevert p time) s = s.planCommand p (.handoverRevert p time) (fun t =>
      withOwnerReply p t (fun o => t.handoverRevert o time)) := rfl

/-- The effective switch time, with its clamped flag first (R138). -/
theorem effectiveSwitch_eq (s : State) (lt : LocalTime) :
    s.effectiveSwitch lt = (if decide (ticksTo s.tb.lt lt < 24000) = true then plus s.tb.lt 24000 else lt,
      decide (ticksTo s.tb.lt lt < 24000)) := by
  by_cases near : ticksTo s.tb.lt lt < 24000
  · simp [State.effectiveSwitch, switchLead, near, Nat.not_le.mpr near]
  · simp [State.effectiveSwitch, switchLead, near, Nat.not_lt.mp near]

section
variable {s : State} {o : Owner} {source target adv : Nat} {time : CellTime} {lt : LocalTime}

theorem resolveSwitch_found (found : s.resolveOn source time s.tb.lt false 0 = .found lt adv) :
    s.resolveSwitch source time = some lt := by
  simp only [State.resolveSwitch, found]

variable (valid : time.valid = true) (serving : s.serving? o = some source) (fresh : s.handover? o = none)
  (found : s.resolveOn source time s.tb.lt false 0 = .found lt adv)
include valid serving fresh found

/-- R137: a HANDOVER to a timed NEIGHBOUR of the owner passes every check. -/
theorem handover_accepts {c : Cell} (hc : s.cell? target = some c) (owner : c.owner = o) (neighbour : c.state = .neighbour)
    (timed : c.anchor ≠ none) :
    s.handover o target time
      = s.acceptHandover o ⟨.handover, source, target, time, (s.effectiveSwitch lt).1, (s.effectiveSwitch lt).2⟩ := by
  have inTable : ¬23 < target := by have := cell?_lt s target c hc; omega
  simp [State.handover, inTable, valid, serving, fresh, State.handoverTo, hc, owner, neighbour, timed,
    resolveSwitch_found found]

/-- R151: a revert is accepted before its window closes, back to the retiring entry, and refused from then on. -/
theorem handoverRevert_eq {v : RevertWindow} (hv : s.revert? o = some v) (timed : s.timed v.retiring = true) :
    s.handoverRevert o time = if before (s.effectiveSwitch lt).1 v.closeLt then
        s.acceptHandover o ⟨.revert, source, v.retiring, time, (s.effectiveSwitch lt).1, (s.effectiveSwitch lt).2⟩
      else some (refuse s .noHo) := by
  simp [State.handoverRevert, valid, fresh, hv, State.revertTo, serving, timed, resolveSwitch_found found]

end

/-- An acceptance: exchanges abandoned, the members of the rebinding ordered and their cascade run (R139 to R144). -/
theorem acceptHandover_runs {s : State} {o : Owner} {ho : Handover} {w v : Work} {abandoned : Nat}
    {ordered : State × List Task}
    (straddled : (Work.of (s.setHandover o (some ho))).abandonStraddling o ho.source ho.ts
      (s.setHandover o (some ho)).exchangeList = (w, abandoned))
    (order : w.st.refreshWindows.reresolve (w.st.refreshWindows.rebindingMembers o ho) (fun _ => ho.source) = ordered)
    (ran : (Work.of ordered.1).run ordered.2 = some v) :
    s.acceptHandover o ho
      = some (accept v.st (ltBytes ho.ts ++ flagByte ho.clamped ++ v.counts ++ bytesOfNat 1 abandoned)) := by
  simp only [State.acceptHandover, straddled, order, ran]

/-- What an accepted HANDOVER or HANDOVER REVERT leaves: the record PENDING and answered with its counts, and beside that the
listed parts and what `ok` says of them. -/
def State.HandsOver (s : State) (o : Owner) (n : Nat) (cmd : Instr) (ho : Handover) (parts : List Block) (port : PortState)
    (counts : List Byte) (ok : State → Prop) : Prop :=
  ∃ t, exec cmd s = .next t ∧ t.handover? o = some ho ∧ t.handover? o.other = s.handover? o.other
    ∧ t.hu.windows = s.hu.windows ∧ ok t
    ∧ t.port o.port = port.answered n .ok (bytesOfNat 6 ho.ts.toNat ++ [if ho.clamped then 1 else 0] ++ counts)
    ∧ s.replannedExcept t (.hu :: .port o.port :: parts)

/-- The accepted command `cmd` makes the record `ho` PENDING (R139, R151). -/
def State.Accepts (s : State) (o : Owner) (cmd : Instr) (ho : Handover) : Prop :=
  ∃ body, exec cmd s = s.planCommand o.port cmd body ∧ body s = s.acceptHandover o ho

section
variable {s u : State} {o : Owner} {n : Nat} {cmd : Instr} {ho : Handover} {parts : List Block} {port : PortState}
  {counts : List Byte} {abandoned : Nat}

/-- The end of an accepted command whose cascade has run. -/
theorem handsOver_of_accepted (executes : s.executes o.port n cmd) (accepts : s.Accepts o cmd ho)
    (answer : s.acceptHandover o ho
      = some (accept u (ltBytes ho.ts ++ flagByte ho.clamped ++ counts ++ bytesOfNat 1 abandoned)))
    (frame : (s.setHandover o (some ho)).Replans u (.port o.port :: parts)) (keeps : ∀ b ∈ parts, b = .rt ∨ b = .su)
    (hport : u.port o.port = port) (slot : port.slot = (s.port o.port).slot) (quiet : s.active? = none ∨ u.active? ≠ none)
    (ok : State → Prop) (holds : ∀ t : State, t.Holds u → ok t) :
    s.HandsOver o n cmd ho parts port (counts ++ bytesOfNat 1 abandoned) ok := by
  obtain ⟨body, row, asked⟩ := accepts
  have whole : s.Replans u (.hu :: .port o.port :: parts) :=
    ((State.Replans.withHu s _).mono (by simp)).trans (frame.mono fun _ hb => List.mem_cons_of_mem _ hb)
  obtain ⟨t, step, holdsU, answered, replanned⟩ := planCommand_settles executes (asked.trans answer) (hport ▸ slot) quiet
    whole (by simp)
  have hu : t.hu = (s.setHandover o (some ho)).hu := holdsU.hu.trans (frame.hu fun hm => by
    rcases List.mem_cons.mp hm with port | part
    · cases port
    · rcases keeps _ part with h | h <;> cases h)
  refine ⟨t, row.trans step, ?_, ?_, by rw [hu]; rfl, holds t holdsU, ?_, replanned⟩
  · exact (handover?_congr _ t hu o).trans ((handover?_setHandover s o o _).trans (if_pos rfl))
  · exact (handover?_congr _ t hu o.other).trans ((handover?_setHandover s o o.other _).trans (if_neg (Owner.other_ne o)))
  · rw [answered, hport, List.append_assoc]
    rfl

end

/-! ### The members of a rebinding (R140, R141) -/

/-- A follower GRANTED on the source of a handover at or after Ts (R141). -/
def Record.rebinds (r : Record) (o : Owner) (ho : Handover) : Prop :=
  r.owner = o ∧ r.binding = .followsServing ∧ r.occ.state = .granted ∧ r.occ.entry = ho.source
    ∧ before (r.occ.nominal.getD r.occ.placed) ho.ts = false

theorem rebindingMembers_none (s : State) (o : Owner) (ho : Handover)
    (h : ∀ k q, s.record? k = some q → ¬q.rebinds o ho) : s.rebindingMembers o ho = [] :=
  recordList_filter_none s _ fun k q hq => by
    have stays := h k q hq
    simp only [Record.rebinds] at stays
    simpa [and_assoc] using stays

theorem rebindingMembers_one (s : State) (o : Owner) (ho : Handover) (h : Nat) (r : Record) (hr : s.record? h = some r)
    (member : r.rebinds o ho) (only : ∀ k q, k ≠ h → s.record? k = some q → ¬q.rebinds o ho) :
    s.rebindingMembers o ho = [(h, r)] := by
  refine recordList_filter_one s _ h r hr ?_ fun k q hk hq => ?_
  · obtain ⟨owner, binding, state, entry, late⟩ := member
    simp [owner, binding, state, entry, late]
  · have other := only k q hk hq
    simp only [Record.rebinds] at other
    simpa [and_assoc] using other

/-- A cell time resolves at or after Ts on the source of a handover, and at `lt` on its target (R140). -/
def State.ResolvesPast (s : State) (ho : Handover) (time : CellTime) (ref : LocalTime) (tx : Bool) (earlier : Nat)
    (lt : LocalTime) (adv : Nat) : Prop :=
  (∃ ltS advS, s.resolveOn ho.source time ref tx earlier = .found ltS advS ∧ before ltS ho.ts = false)
    ∧ s.resolveOn ho.target time ref tx earlier = .found lt adv

/-- R140: past Ts on the source, the target's result stands unless it falls before Ts. -/
theorem resolveFor_past {s t : State} {o : Owner} {ho : Handover} {time : CellTime} {ref lt : LocalTime} {tx : Bool}
    {earlier adv : Nat} (past : s.ResolvesPast ho time ref tx earlier lt adv) (ct : t.ct = s.ct)
    (pending : t.handover? o = some ho) (named : Nat) :
    t.resolveFor o .followsServing named time ref tx earlier
      = if before lt ho.ts then .switched ho.target lt adv else .found ho.target lt adv := by
  obtain ⟨⟨ltS, advS, source, late⟩, target⟩ := past
  simp [State.resolveFor, pending, State.resolveSwitchAware, resolveOn_congr ct, source, late, target]

section
variable {s : State} {o : Owner} {ho : Handover} {h adv : Nat} {r : Record} {start : LocalTime}

/-- R141: the one member of a rebinding leaves the timeline and is resolved past Ts. -/
theorem rebinding_order (hr : s.record? h = some r) (member : r.rebinds o ho)
    (only : ∀ k q, k ≠ h → s.record? k = some q → ¬q.rebinds o ho)
    (past : s.ResolvesPast ho (r.start.atIndex r.occ.k (r.period.getD 0)) s.tb.lt r.kind.isTx 0 start adv) :
    let s1 := s.setHandover o (some ho)
    ∃ u, s1.refreshWindows.reresolve (s1.refreshWindows.rebindingMembers o ho) (fun _ => ho.source)
        = (u, [.member h r.occ.k (if before start ho.ts then .switched ho.target start adv
            else .found ho.target start adv)])
      ∧ s1.Rewrites u o h (s.port o.port) (some r.withdrawn) := by
  intro s1
  have one := rebindingMembers_one s1.refreshWindows o ho h r hr member only
  obtain ⟨owner, binding, granted, -, -⟩ := member
  have base : s1.Rewrites (s1.refreshWindows.withdraw [h]).refreshWindows o h (s.port o.port) (some r.withdrawn) := by
    have withdrawn := ((State.Rewrites.refl s1 o h).refreshWindows.withdraw).refreshWindows
    rwa [show s1.record? h = some r from hr] at withdrawn
  have pending : s1.handover? o = some ho := (handover?_setHandover s o o _).trans (if_pos rfl)
  have placed := resolveFor_past past (t := (s1.refreshWindows.withdraw [h]).refreshWindows)
    (base.frame.ct (by simp)) ((handover?_congr s1 _ (base.frame.hu (by simp)) o).trans pending) ho.source
  refine ⟨_, ?_, base⟩
  rw [one, reresolve_granted _ h r _ granted]
  simp only [State.resolveMember, owner, binding, base.frame.tb (by simp)]
  exact congrArg (fun p => (_, [Task.member h r.occ.k p])) placed

end

end Sys2Proof.Machine
end

section
namespace Sys2Proof.Machine

/-! ### The outcomes of an accepted handover (R139 to R144) -/

/-- What R137 asks of a HANDOVER, or R151 of a revert, with the switch time that R138 gives. -/
theorem accepts_of_asked {s : State} {o : Owner} {source target adv : Nat} {time : CellTime} {lt ts : LocalTime}
    {clamped : Bool} {cmd : Instr} {kind : HandoverKind} (valid : time.valid = true) (serving : s.serving? o = some source)
    (fresh : s.handover? o = none) (found : s.resolveOn source time s.tb.lt false 0 = .found lt adv)
    (effective : s.effectiveSwitch lt = (ts, clamped))
    (asked : (kind = .handover ∧ cmd = .handover o.port target time
        ∧ ∃ c, s.cell? target = some c ∧ c.owner = o ∧ c.state = .neighbour ∧ c.anchor ≠ none)
      ∨ (kind = .revert ∧ cmd = .handoverRevert o.port time ∧ s.timed target = true
        ∧ ∃ v, s.revert? o = some v ∧ v.retiring = target ∧ before ts v.closeLt = true)) :
    s.Accepts o cmd ⟨kind, source, target, time, ts, clamped⟩ := by
  rcases asked with ⟨rfl, rfl, c, hc, owner, neighbour, timed⟩ | ⟨rfl, rfl, timed, v, hv, rfl, early⟩
  · have accepted := handover_accepts valid serving fresh found hc owner neighbour timed
    rw [effective] at accepted
    exact ⟨_, exec_handover o.port target time s, (withOwnerReply_port o s _).trans accepted⟩
  · have accepted := handoverRevert_eq valid serving fresh found hv timed
    rw [effective, if_pos early] at accepted
    exact ⟨_, exec_handoverRevert o.port time s, (withOwnerReply_port o s _).trans accepted⟩

section
variable {s : State} {o : Owner} {n : Nat} {cmd : Instr} {ho : Handover} (executes : s.executes o.port n cmd)
  (accepts : s.Accepts o cmd ho)

theorem straddled_none (still : ∀ i x, s.exchange? i = some x → s.staysQuiet o ho.source ho.ts x) :
    (Work.of (s.setHandover o (some ho))).abandonStraddling o ho.source ho.ts
      (s.setHandover o (some ho)).exchangeList = (Work.of (s.setHandover o (some ho)), 0) :=
  abandonStraddling_none _ o _ _ _ fun y hy =>
    straddles_of_staysQuiet (s := s) (still y.1 y.2 ((mem_exchangeList s y.1 y.2).mp hy))

include executes accepts

/-- Without a member and without a straddling exchange every count is zero. -/
theorem handsOver_alone (still : ∀ i x, s.exchange? i = some x → s.staysQuiet o ho.source ho.ts x)
    (nobody : ∀ h r, s.record? h = some r → ¬r.rebinds o ho) :
    s.HandsOver o n cmd ho [] (s.port o.port) ([0, 0, 0, 0, 0, 0] ++ [0]) (fun _ => True) := by
  let s1 := s.setHandover o (some ho)
  have order : s1.refreshWindows.reresolve (s1.refreshWindows.rebindingMembers o ho) (fun _ => ho.source)
      = (s1.refreshWindows.refreshWindows, []) := by
    rw [rebindingMembers_none s1.refreshWindows o ho nobody, reresolve_none]
  have answer := acceptHandover_runs (straddled_none still) order (run_nil _)
  rw [counts_of_tally (moved := 0) (missed := 0) (lost := 0) rfl] at answer
  exact handsOver_of_accepted executes accepts answer ((State.Replans.refreshWindows s1 _).trans (.refreshWindows _ _))
    (by simp) rfl rfl (quiet_of_rt rfl) _ fun _ _ => trivial

/-- One member, whose cascade ends with some counts and leaves its record and the port as given. -/
theorem handsOver_member {h adv moved missed lost : Nat} {r : Record} {start : LocalTime} {port : PortState}
    {rest : Option Record} (still : ∀ i x, s.exchange? i = some x → s.staysQuiet o ho.source ho.ts x)
    (hr : s.record? h = some r) (member : r.rebinds o ho)
    (only : ∀ k q, k ≠ h → s.record? k = some q → ¬q.rebinds o ho)
    (past : s.ResolvesPast ho (r.start.atIndex r.occ.k (r.period.getD 0)) s.tb.lt r.kind.isTx 0 start adv)
    (cascade : ∀ u, (s.setHandover o (some ho)).Rewrites u o h (s.port o.port) (some r.withdrawn) →
      ∃ v, (Work.of u).run [.member h r.occ.k (if before start ho.ts then .switched ho.target start adv
            else .found ho.target start adv)] = some v
        ∧ v.tally = (moved, missed, lost) ∧ (s.setHandover o (some ho)).Rewrites v.st o h port rest)
    (slot : port.slot = (s.port o.port).slot) :
    s.HandsOver o n cmd ho [.rt] port ((countBytes moved ++ countBytes missed ++ countBytes lost) ++ bytesOfNat 1 0)
      (fun t => (∀ k, k ≠ h → t.record? k = s.record? k) ∧ t.record? h = rest) := by
  obtain ⟨u, order, base⟩ := rebinding_order hr member only past
  obtain ⟨v, ran, tally, rewrites⟩ := cascade u base
  have answer := acceptHandover_runs (straddled_none still) order ran
  rw [counts_of_tally tally] at answer
  have idle : ∀ q, (s.setHandover o (some ho)).record? h = some q → q.occ.state ≠ .active := fun q hq => by
    have same : s.record? h = some q := hq
    rw [hr] at same
    cases same
    rw [member.2.2.1]
    decide
  exact handsOver_of_accepted executes accepts answer (rewrites.frame.mono (by simp)) (by simp) rewrites.port slot
    (rewrites.quiet idle) _ fun t holds => ⟨fun k hk => (record?_congr _ t holds.rt k).trans (rewrites.others k hk),
      (record?_congr _ t holds.rt h).trans rewrites.record⟩

/-- R143: the one exchange that straddles Ts is abandoned with its records, the members among them. -/
theorem handsOver_straddling {i j : Nat} {x : Exchange} {last y : Step} (hx : s.exchange? i = some x) (owner : x.owner = o)
    (entry : x.entry = ho.source)
    (others : ∀ k z, k ≠ i → s.exchange? k = some z → s.staysQuiet o ho.source ho.ts z
      ∧ ∀ w ∈ z.steps, ∀ h, w.handle = some h → ∀ z' ∈ x.steps, z'.handle ≠ some h)
    (members : ∀ h r, s.record? h = some r → r.rebinds o ho → ∃ z ∈ x.steps, z.handle = some h)
    (steps : ∀ z ∈ x.steps, ∀ h, z.handle = some h → ∃ r, s.record? h = some r ∧ r.link = some (.exchange i)
      ∧ r.binding = .followsServing ∧ r.occ.state ≠ .active)
    (hl : x.steps.getLast? = some last) (ends : s.endsAfter ho.ts last)
    (first : ∀ z m, x.steps.head? = some z → s.stepNominal z = some m → before m ho.ts = true)
    (hy : x.steps[j]? = some y) (notDone : y.ending ≠ some .done) (late : s.endsAfter ho.ts y)
    (below : ∀ k z, k < j → x.steps[k]? = some z → z.ending = some .done ∨ ¬s.endsAfter ho.ts z) :
    s.HandsOver o n cmd ho [.rt, .su]
      ((s.port o.port).push ⟨.exchAbandoned, i, .straddling, flagBits [x.cancelPending, false],
        low16 (j + 256 * x.done), s.tb.lt⟩)
      ([0, 0, 0, 0, 0, 0] ++ [1])
      (fun t => t.su.calls = s.su.calls ∧ t.exchange? i = none ∧ (∀ k, k ≠ i → t.exchange? k = s.exchange? k)
        ∧ (∀ z ∈ x.steps, ∀ h, z.handle = some h → t.record? h = none)
        ∧ (∀ h, (∀ z ∈ x.steps, z.handle ≠ some h) → t.record? h = s.record? h)) := by
  subst owner
  have idle : ∀ z ∈ x.steps, ∀ h, z.handle = some h → ∀ r, s.record? h = some r →
      (r.link = some (.exchange i) ∧ r.binding = .followsServing) ∧ r.occ.state ≠ .active := fun z hz h hh r hr => by
    obtain ⟨q, hq, link, binding, inactive⟩ := steps z hz h hh
    rw [hr] at hq
    cases hq
    exact ⟨⟨link, binding⟩, inactive⟩
  have straddles := straddles_of_ends hl ends first
  have failing := straddlingStep_eq hy notDone late below
  rw [entry] at straddles
  obtain ⟨w, straddled, abandons⟩ := abandonStraddling_one (s.setHandover x.owner (some ho)) ho.ts i j x hx
    (entry ▸ straddles) failing idle (entry ▸ others)
  rw [entry] at straddled
  have abandons := abandons.refreshWindows
  have nobody : ∀ k q, w.st.refreshWindows.record? k = some q → ¬q.rebinds x.owner ho := fun k q hq member => by
    by_cases step : ∃ z ∈ x.steps, z.handle = some k
    · obtain ⟨z, hz, hk⟩ := step
      rw [abandons.gone z hz k hk] at hq
      cases hq
    · rw [abandons.kept k fun z hz hk => step ⟨z, hz, hk⟩] at hq
      exact step (members k q hq member)
  have order : w.st.refreshWindows.reresolve (w.st.refreshWindows.rebindingMembers x.owner ho) (fun _ => ho.source)
      = (w.st.refreshWindows.refreshWindows, []) := by
    rw [rebindingMembers_none _ x.owner ho nobody, reresolve_none]
  have answer := acceptHandover_runs straddled order (run_nil _)
  rw [counts_of_tally (moved := 0) (missed := 0) (lost := 0) rfl] at answer
  have abandons := abandons.refreshWindows
  have quiet := quiet_of_active_kept s w.st.refreshWindows.refreshWindows fun k q hq active =>
    (abandons.kept k fun z hz hk => (idle z hz k hk q hq).2 active).trans hq
  refine handsOver_of_accepted executes accepts answer abandons.frame (by simp) abandons.port
    (PortState.push_grew _ _).slot quiet _ fun t holds => ⟨?_, ?_, fun k hk => ?_, fun z hz h hh => ?_, fun h none => ?_⟩
  · rw [holds.su]
    exact abandons.calls
  · exact (exchange?_congr _ t holds.su i).trans abandons.exchange
  · exact (exchange?_congr _ t holds.su k).trans (abandons.exchanges k hk)
  · exact (record?_congr _ t holds.rt h).trans (abandons.gone z hz h hh)
  · exact (record?_congr _ t holds.rt h).trans (abandons.kept h none)

end

/-! ### Where a member stands -/

/-- A member moved to its new start, GRANTED as it was. -/
theorem moved_standing (r : Record) (entry adv lead : Nat) (start : LocalTime) (granted : r.occ.state = .granted) :
    (r.withdrawn.resolvedTo entry start adv).standing start lead
      = { r with
          occ := { r.occ with
            entry := entry, nominal := some start, advance := adv, placed := start, shift := 0
            notice := some (less start lead) } } := by
  simp only [Record.standing, Record.withNotice, Record.grantedAt, Record.resolvedTo, Record.withdrawn, granted]

/-- The next index of a member lost at the switch, GRANTED at its start. -/
theorem next_standing (r : Record) (entry adv entry' adv' lead : Nat) (start start' : LocalTime)
    (taken : r.mask.getLsbD ((r.occ.k + 1) % 65536 % 16) = true) :
    (({ r.withdrawn.resolvedTo entry start adv with lost := bump r.lost } : Record).nextAt entry' adv' start').standing
        start' lead
      = { r with
          remaining := r.remaining.map (· - 1), lost := min (r.lost + 1) 65535
          occ :=
            { k := (r.occ.k + 1) % 65536, state := .granted, entry := entry', nominal := some start', advance := adv'
              placed := start', shift := 0, remaining := r.length, served := 0, suspensions := 0
              level := r.level, slack := r.slack, profile := r.profile, resumable := r.resumable
              taken := true, firstRise := none, cutAt := none, shortfall := false, resumeFloor := none
              deadline := none, lateLoad := false, widened := false, notice := some (less start' lead) } } := by
  simp only [Record.standing, Record.withNotice, Record.grantedAt, Record.nextAt, Record.freshOcc, Record.takes,
    Record.resolvedTo, Record.withdrawn, bump, taken]

section
variable {s : State} {o : Owner} {n : Nat} {cmd : Instr} {ho : Handover} {h adv : Nat} {r : Record} {start : LocalTime}
  (executes : s.executes o.port n cmd) (accepts : s.Accepts o cmd ho)
  (still : ∀ i x, s.exchange? i = some x → s.staysQuiet o ho.source ho.ts x)
  (hr : s.record? h = some r) (member : r.rebinds o ho) (only : ∀ k q, k ≠ h → s.record? k = some q → ¬q.rebinds o ho)
  (past : s.ResolvesPast ho (r.start.atIndex r.occ.k (r.period.getD 0)) s.tb.lt r.kind.isTx 0 start adv)
include executes accepts still hr member only past

/-- R141: a member whose start on the target is open is GRANTED there, and counts as moved. -/
theorem handsOver_moved (inTime : before start ho.ts = false) (opens : s.Opens o h r.occ.profile r.occ.remaining start) :
    s.HandsOver o n cmd ho [.rt] (s.port o.port) ([0, 1, 0, 0, 0, 0] ++ [0])
      (fun t => (∀ k, k ≠ h → t.record? k = s.record? k) ∧ t.record? h = some
        { r with
          occ := { r.occ with
            entry := ho.target, nominal := some start, advance := adv, placed := start, shift := 0
            notice := some (less start s.sc.params.lead) } }) := by
  rw [← moved_standing r ho.target adv s.sc.params.lead start member.2.2.1]
  refine handsOver_member (moved := 1) (missed := 0) (lost := 0) executes accepts still hr member only past
    (fun u base => ?_) rfl
  rw [inTime]
  exact run_member_granted base ho.target adv start (.inl rfl) member.1
    (opens.of_replans (State.Replans.withHu s _) (by simp))

/-- R142: the last index of a member, before Ts on the target, is missed and ends its record. -/
theorem handsOver_missed_last (early : before start ho.ts = true) (link : r.link = none) (last : r.remaining = some 0) :
    s.HandsOver o n cmd ho [.rt] (((s.port o.port).push ⟨.missed, h, .missedSwitch, 0, 1, s.tb.lt⟩).push
        ⟨.recordEnded, h, .exhausted, 0, low16 r.served, s.tb.lt⟩) ([0, 0, 0, 1, 0, 0] ++ [0])
      (fun t => (∀ k, k ≠ h → t.record? k = s.record? k) ∧ t.record? h = none) := by
  refine handsOver_member (moved := 0) (missed := 1) (lost := 0) executes accepts still hr member only past
    (fun u base => ?_) (((PortState.push_grew _ _).trans (PortState.push_grew _ _)).slot)
  rw [early]
  exact run_member_switch_ends base ho.target adv start (.inl rfl) member.1 link member.2.1 last

/-- R142: any other index before Ts on the target is missed, and the next one is GRANTED where it is open. -/
theorem handsOver_missed_next {adv' : Nat} {start' : LocalTime} (early : before start ho.ts = true) (link : r.link = none)
    (more : r.remaining ≠ some 0) (taken : r.mask.getLsbD ((r.occ.k + 1) % 65536 % 16) = true)
    (past' : s.ResolvesPast ho (r.start.atIndex ((r.occ.k + 1) % 65536) (r.period.getD 0)) start r.kind.isTx adv start'
      adv')
    (inTime : before start' ho.ts = false) (opens : s.Opens o h r.profile r.length start') :
    s.HandsOver o n cmd ho [.rt] ((s.port o.port).push ⟨.missed, h, .missedSwitch, 0, 1, s.tb.lt⟩)
      ([0, 0, 0, 1, 0, 0] ++ [0])
      (fun t => (∀ k, k ≠ h → t.record? k = s.record? k) ∧ t.record? h = some
        { r with
          remaining := r.remaining.map (· - 1), lost := min (r.lost + 1) 65535
          occ :=
            { k := (r.occ.k + 1) % 65536, state := .granted, entry := ho.target, nominal := some start', advance := adv'
              placed := start', shift := 0, remaining := r.length, served := 0, suspensions := 0
              level := r.level, slack := r.slack, profile := r.profile, resumable := r.resumable
              taken := true, firstRise := none, cutAt := none, shortfall := false, resumeFloor := none
              deadline := none, lateLoad := false, widened := false
              notice := some (less start' s.sc.params.lead) } }) := by
  rw [← next_standing r ho.target adv ho.target adv' s.sc.params.lead start start' taken]
  refine handsOver_member (moved := 0) (missed := 1) (lost := 0) executes accepts still hr member only past
    (fun u base => ?_) (PortState.push_grew _ _).slot
  have pending : (s.setHandover o (some ho)).handover? o = some ho := (handover?_setHandover s o o _).trans (if_pos rfl)
  rw [early]
  refine run_member_switch_follows base ho.target adv start (.inl rfl) member.1 link more taken ho.target adv' start'
    (fun t frame named => ?_) (opens.of_replans (State.Replans.withHu s _) (by simp))
  have placed := resolveFor_past past' (frame.ct (by simp))
    ((handover?_congr _ t (frame.hu (by simp)) o).trans pending) named
  rw [inTime] at placed
  exact member.2.1 ▸ placed

end

/-- Settles O46: an accepted handover runs the cascade of its one member or abandons its one straddling exchange; a revert
after its window and a cancel without a record are refused, and any other cancel withdraws. -/
theorem handoverIsFixedOrWithdrawn : Obligations.HandoverIsFixedOrWithdrawn := by
  refine ⟨?_, ?_, ?_⟩
  · intro s o n source target adv time lt cmd kind valid executes serving fresh found clamped ts asked nominal endsAfter
      endsBy quiet member accepted isAsked
    have accepts : s.Accepts o cmd ⟨kind, source, target, time, ts, clamped⟩ :=
      accepts_of_asked valid serving fresh found (effectiveSwitch_eq s lt) isAsked
    refine ⟨fun still nobody => handsOver_alone executes accepts still nobody, ?_, ?_⟩
    · intro h advS advT r ltS start still hr mine only at' soon free others source' late target'
      have past : s.ResolvesPast ⟨kind, source, target, time, ts, clamped⟩ (r.start.atIndex r.occ.k (r.period.getD 0))
          s.tb.lt r.kind.isTx 0 start advT := ⟨⟨ltS, advS, source', late⟩, target'⟩
      refine ⟨fun inTime opens free => ?_, fun early link => ⟨fun last => ?_, ?_⟩⟩
      · exact handsOver_moved executes accepts still hr mine only past inTime ⟨opens.1, opens.2, free⟩
      · exact handsOver_missed_last executes accepts still hr mine only past early link last
      · intro advS' advT' ltS' start' more k taken source'' late' target'' inTime opens free
        exact handsOver_missed_next executes accepts still hr mine only past early link more taken
          ⟨⟨ltS', advS', source'', late'⟩, target''⟩ inTime ⟨opens.1, opens.2, free⟩
    · intro i j x last y hx owner entry apart members steps hl ends first hy notDone late below
      exact handsOver_straddling executes accepts hx owner entry apart members steps hl ends first hy notDone late below
  · intro s o n source adv time lt v valid executes serving fresh found hv timed closed
    have refused := handoverRevert_eq valid serving fresh found hv timed
    rw [effectiveSwitch_eq] at refused
    simp only [decide_eq_true_eq, closed] at refused
    rw [exec_handoverRevert]
    exact planCommand_refused executes ((withOwnerReply_port o s _).trans refused) (by decide)
  · intro s o n executes
    refine ⟨fun fresh => ?_, fun ho hh nobody => ?_⟩
    · have refused : s.handoverCancel o = some (refuse s .noHo) := by simp only [State.handoverCancel, fresh]
      rw [exec_handoverCancel]
      exact planCommand_refused executes ((withOwnerReply_port o s _).trans refused) (by decide)
    · exact handoverCancel_withdraws executes hh (followersOn_none s o ho.target nobody)

end Sys2Proof.Machine
end

/-! ## Ports, events and the frames of the commands -/

section
namespace Sys2Proof.Machine

/-! ### Posting events (R182, R183) -/

/-- From `s` to `u` the ports gain events and nothing else. -/
def State.Posts (s u : State) : Prop := ∀ p, (s.port p).Grew (u.port p)

namespace State.Posts

theorem of_pi {s u : State} (h : u.pi = s.pi) : s.Posts u := fun p => by
  rw [show u.port p = s.port p from congrArg (PerPort.get · p) h]
  exact PortState.Grew.refl _

theorem refl (s : State) : s.Posts s := of_pi rfl

theorem trans {s t u : State} (a : s.Posts t) (b : t.Posts u) : s.Posts u := fun p => (a p).trans (b p)

theorem of_planned {s u : State} (h : Planned s u) : s.Posts u := h.ports

theorem postPort (s : State) (p : Port) (k : EventKind) (x : Nat) (r : Reason) (f : BitVec 8) (d : BitVec 16) :
    s.Posts (s.postPort p k x r f d) := (Planned.postPort s p k x r f d).ports

theorem post (s : State) (o : Owner) (k : EventKind) (x : Nat) (r : Reason) (f : BitVec 8) (d : BitVec 16) :
    s.Posts (s.post o k x r f d) := postPort s o.port k x r f d

theorem updateCell (s : State) (i : Nat) (g : Cell → Cell) : s.Posts (s.updateCell i g) := of_pi (by simp)

theorem updateOcc (s : State) (h : Nat) (g : Occurrence → Occurrence) : s.Posts (s.updateOcc h g) := of_pi (by simp)

theorem updateExchange (s : State) (i : Nat) (g : Exchange → Exchange) : s.Posts (s.updateExchange i g) :=
  (Planned.updateExchange s i g).ports

theorem reresolve (s : State) (ms : List (Nat × Record)) (named : Record → Nat) : s.Posts (s.reresolve ms named).1 :=
  (Planned.reresolve s ms named).ports

theorem then_reresolve {s t : State} (a : s.Posts t) (ms : List (Nat × Record)) (named : Record → Nat) :
    s.Posts (Work.of (t.reresolve ms named).1).st := a.trans (reresolve t ms named)

/-- The cascade of a step posts events (R77). -/
theorem run {w v : Work} {ts : List Task} (h : w.run ts = some v) : w.st.Posts v.st := (Planned.run w ts v h).ports

theorem activate (s : State) (nx : NextWindow) : s.Posts (s.activate nx) := by
  unfold State.activate
  split
  · exact refl s
  · rename_i r _
    have informed : ∀ t : State, s.Posts t → s.Posts (t.informActivation nx.handle r) := fun t h => by
      unfold State.informActivation
      split
      · exact h.trans (updateExchange _ _ _)
      · exact h
      · exact h
    have risen : ∀ g w, s.Posts { s.updateOcc nx.handle g with wc := w } := fun g w =>
      (updateOcc s nx.handle g).trans (of_pi rfl)
    dsimp only
    split
    · exact ((informed _ (risen _ _)).trans (post _ _ _ _ _ _ _)).trans (of_pi rfl)
    · exact (informed _ (risen _ _)).trans (of_pi rfl)

/-- Settling posts RESUMED at most (R86, R93, R98). -/
theorem settle (s u : State) : u.Posts (State.settle s u) := by
  have windows : u.Posts (State.settleWindows s u) := by
    have refreshed : u.Posts u.refreshWindows := of_pi rfl
    unfold State.settleWindows
    dsimp only
    split
    · split
      · exact refreshed.trans (activate _ _)
      · exact refreshed
    · exact refreshed
  exact windows.trans (of_pi rfl)

end State.Posts

/-! ### What every row keeps of the ports (R178, R183, R184, R186) -/

/-- What a port's rewriting keeps: the bounds of its queue, and that a disabled port is out of the part. -/
structure PortState.Keeps (x y : PortState) : Prop where
  bounded : x.queue.length ≤ 16 → y.queue.length ≤ 16
  counted : x.overflowCount ≤ 255 → y.overflowCount ≤ 255
  out : x.outSound → y.outSound

theorem PortState.Keeps.of_grew {x y : PortState} (h : x.Grew y) : x.Keeps y where
  bounded := h.bounded
  counted := h.counted
  out := fun sound disabled => by
    have same := h.out (h.enabled.symm.trans disabled)
    rw [same] at disabled ⊢
    exact sound disabled

/-- A port whose queue stays and that stays enabled. -/
theorem PortState.Keeps.of_enabled {x y : PortState} (queue : y.queue = x.queue)
    (count : y.overflowCount = x.overflowCount) (enabled : y.enabled = true) : x.Keeps y where
  bounded := fun h => queue ▸ h
  counted := fun h => count ▸ h
  out := fun _ disabled => by simp [enabled] at disabled

/-- A port with a PENDING slot is enabled (R178, R186). -/
theorem PortState.enabled_of_pending {x : PortState} (h : x.outSound) {n : Nat} (slot : x.slot = .pending n) :
    x.enabled = true := by
  cases he : x.enabled with
  | true => rfl
  | false =>
    have disabled := (h he).1
    rw [slot] at disabled
    cases disabled

theorem PortState.outSound_of_enabled {x : PortState} (h : x.enabled = true) : x.outSound := fun disabled => by
  rw [h] at disabled
  cases disabled

/-- From `s` to `u` the queues stay bounded, POLICY enabled and disabled ports out. -/
structure State.KeepsPorts (s u : State) : Prop where
  queues : s.queuesSound → u.queuesSound
  ports : s.portsSound → u.portsSound

namespace State.KeepsPorts

theorem trans {s t u : State} (a : s.KeepsPorts t) (b : t.KeepsPorts u) : s.KeepsPorts u :=
  ⟨fun h => b.queues (a.queues h), fun h => b.ports (a.ports h)⟩

theorem of_posts {s u : State} (h : s.Posts u) : s.KeepsPorts u where
  queues := fun sound p => ⟨(h p).bounded (sound p).1, (h p).counted (sound p).2⟩
  ports := fun ⟨policy, out⟩ =>
    ⟨(h .policy).enabled.trans policy, fun p => (PortState.Keeps.of_grew (h p)).out (out p)⟩

theorem of_pi {s u : State} (h : u.pi = s.pi) : s.KeepsPorts u := of_posts (.of_pi h)

theorem refl (s : State) : s.KeepsPorts s := of_pi rfl

theorem setPort (s : State) (p : Port) (x : PortState) (keeps : (s.port p).Keeps x)
    (policy : p = .policy → (s.port p).enabled = true → x.enabled = true) : s.KeepsPorts (s.setPort p x) where
  queues := fun sound q => by
    rw [port_setPort]
    split
    · exact ⟨keeps.bounded (sound p).1, keeps.counted (sound p).2⟩
    · exact sound q
  ports := fun ⟨enabled, out⟩ => by
    refine ⟨?_, fun q => ?_⟩
    · rw [port_setPort]
      split
      · rename_i at'
        exact policy at'.symm (at' ▸ enabled)
      · exact enabled
    · rw [port_setPort]
      split
      · exact keeps.out (out p)
      · exact out q

/-- A port rewritten that stays enabled, with its queue as it was. -/
theorem setPort_enabled (s : State) (p : Port) (x : PortState) (queue : x.queue = (s.port p).queue)
    (count : x.overflowCount = (s.port p).overflowCount) (enabled : x.enabled = true) : s.KeepsPorts (s.setPort p x) :=
  setPort s p x (.of_enabled queue count enabled) fun _ _ => enabled

theorem complete (s : State) (p : Port) (st : Status) (rs : List Byte) : s.KeepsPorts (s.complete p st rs) := by
  by_cases pending : ∃ n, (s.port p).slot = .pending n
  · obtain ⟨n, slot⟩ := pending
    rw [complete_pending s p n st rs slot]
    exact setPort s p _ ⟨id, id, fun (out : (s.port p).outSound) =>
      PortState.outSound_of_enabled (PortState.enabled_of_pending (x := s.port p) out slot)⟩ fun _ => id
  · rw [complete_other s p st rs (not_exists.mp pending)]
    exact refl s

theorem settle (s u : State) : u.KeepsPorts (State.settle s u) := of_posts (.settle s u)

theorem checkFrame (s : State) (p : Port) : s.KeepsPorts (s.checkFrame p) := by
  unfold State.checkFrame
  split
  · exact refl s
  · split
    · exact refl s
    · exact complete _ _ _ _

end State.KeepsPorts

end Sys2Proof.Machine
end

section
namespace Sys2Proof.Machine

/-! ### What a command's block answers (R180) -/

/-- A block refuses and changes nothing, or accepts with an effect. -/
inductive State.Answers (s : State) (effect : State → Prop) : Answer → Prop
  | refused (st : Status) (h : st ≠ .ok) : s.Answers effect (refuse s st)
  | accepted (u : State) (rs : List Byte) (h : effect u) : s.Answers effect (accept u rs)

/-- As `State.Answers`, for a block whose cascade may exceed its bound. -/
def State.Replies (s : State) (effect : State → Prop) (r : Reply) : Prop := ∀ a, r = some a → s.Answers effect a

section
variable {s : State} {effect : State → Prop}

theorem State.Answers.mono {weaker : State → Prop} {a : Answer} (h : s.Answers effect a)
    (sub : ∀ u, effect u → weaker u) : s.Answers weaker a := by
  cases h with
  | refused st h => exact .refused st h
  | accepted u rs h => exact .accepted u rs (sub u h)

theorem State.Replies.mono {weaker : State → Prop} {r : Reply} (h : s.Replies effect r)
    (sub : ∀ u, effect u → weaker u) : s.Replies weaker r := fun a ha => (h a ha).mono sub

theorem State.Answers.replies {a : Answer} (h : s.Answers effect a) : s.Replies effect (some a) := fun b hb => by
  cases hb
  exact h

theorem State.Replies.refused (st : Status) (h : st ≠ .ok) : s.Replies effect (some (refuse s st)) :=
  State.Answers.replies (.refused st h)

theorem State.Replies.unfinished : s.Replies effect none := fun _ ha => by cases ha

theorem withOwner_answers {p : Port} {body : Owner → Answer} (h : ∀ o, s.Answers effect (body o)) :
    s.Answers effect (withOwner p s body) := by
  unfold withOwner
  split
  · exact h _
  · exact .refused _ (by decide)

theorem withOwnerReply_replies {p : Port} {body : Owner → Reply} (h : ∀ o, s.Replies effect (body o)) :
    s.Replies effect (withOwnerReply p s body) := by
  unfold withOwnerReply
  split
  · exact h _
  · exact .refused _ (by decide)

/-- A cascade that a block sets off posts events, and the block answers with what it leaves (R77). -/
theorem run_replies {w : Work} {ts : List Task} {answer : Work → List Byte} (h : s.Posts w.st) :
    s.Replies s.Posts (match w.run ts with
      | none => none
      | some v => some (accept v.st (answer v))) := by
  split
  · exact .unfinished
  · rename_i v hv
    exact (State.Answers.accepted v.st _ (h.trans (State.Posts.run hv))).replies

end

/-! ### The statuses of the shared checks -/

section
variable {s : State} {o : Owner} {i : Nat} {st : Status}

theorem ownCell_error (h : s.ownCell o i = .error st) : st ≠ .ok := by
  unfold State.ownCell at h
  split at h
  · cases h; decide
  · split at h
    · cases h; decide
    · split at h <;> cases h; decide

theorem ownRecord_error (h : s.ownRecord o i = .error st) : st ≠ .ok := by
  unfold State.ownRecord at h
  split at h
  · cases h; decide
  · split at h
    · cases h; decide
    · split at h <;> cases h; decide

theorem plainRecord_error (h : s.plainRecord o i = .error st) : st ≠ .ok := by
  unfold State.plainRecord at h
  split at h
  · rename_i st' own
    cases h
    exact ownRecord_error own
  · split at h <;> cases h; decide

theorem ownExchange_error (h : s.ownExchange o i = .error st) : st ≠ .ok := by
  unfold State.ownExchange at h
  split at h
  · cases h; decide
  · split at h
    · cases h; decide
    · split at h <;> cases h; decide

theorem bindingEntry_error {b : Binding} (h : s.bindingEntry o b = .error st) : st ≠ .ok := by
  unfold State.bindingEntry at h
  split at h
  · split at h
    · cases h; decide
    · split at h <;> cases h; decide
  · split at h <;> cases h; decide

end

/-! ### What the reads of an entry answer (R22, R59, R133) -/

/-- READ CELL's answer to an owner. -/
def State.readCellOf (s : State) (o : Owner) (i : Nat) : Answer :=
  match s.ownCell o i with
  | .error st => refuse s st
  | .ok c => accept s c.result

/-- READ RESERVATION's answer to an owner. -/
def State.readRecordOf (s : State) (o : Owner) (h : Nat) : Answer :=
  match s.ownRecord o h with
  | .error st => refuse s st
  | .ok r => accept s r.result

/-- READ EXCHANGE's answer to an owner. -/
def State.readExchangeOf (s : State) (o : Owner) (i : Nat) : Answer :=
  match s.ownExchange o i with
  | .error st => refuse s st
  | .ok x => accept s x.result

/-! ### The cell commands -/

section
variable (s : State) (o : Owner)

theorem addCell_answers (channel code : Nat) : s.Answers s.Posts (s.addCell o channel code) := by
  unfold State.addCell
  dsimp only
  split
  · exact .refused _ (by decide)
  · split
    · exact .refused _ (by decide)
    · split
      · exact .refused _ (by decide)
      · split
        · exact .refused _ (by decide)
        · exact .accepted _ _ (.of_pi rfl)

theorem removeCell_answers (i : Nat) : s.Answers s.Posts (s.removeCell o i) := by
  unfold State.removeCell
  split
  · rename_i error
    exact .refused _ (ownCell_error error)
  · split
    · exact .accepted _ _ (.of_pi rfl)
    · exact .refused _ (by decide)

theorem readCellOf_answers (i : Nat) : s.Answers s.Posts (s.readCellOf o i) := by
  unfold State.readCellOf
  split
  · rename_i error
    exact .refused _ (ownCell_error error)
  · exact .accepted _ _ (.refl s)

/-- A designation changes cells alone (R25). -/
theorem designation_posts (i : Nat) (x : CellState) : s.Posts ((s.setCellState i x).clearTriggers o) :=
  (State.Posts.updateCell s i _).trans (.of_pi rfl)

theorem setServing_answers (i : Nat) : s.Answers s.Posts (s.setServing o i) := by
  unfold State.setServing
  split
  · rename_i error
    exact .refused _ (ownCell_error error)
  · split
    · exact .refused _ (by decide)
    · split
      · exact .refused _ (by decide)
      · exact .accepted _ _ (designation_posts s o i _)

theorem clearServing_answers : s.Answers s.Posts (s.clearServing o) := by
  unfold State.clearServing
  split
  · exact .refused _ (by decide)
  · split
    · exact .refused _ (by decide)
    · exact .accepted _ _ (designation_posts s o _ _)

theorem installAnchor_replies (a : TimeCellParams) (instant : LocalTime) :
    s.Replies s.Posts (s.installAnchor o a instant) := by
  have captured : s.Posts (if a.source == 1 then s.emptyCapture o else s) := by
    split
    · exact .of_pi rfl
    · exact .refl s
  unfold State.installAnchor
  exact run_replies ((captured.trans (.updateCell _ _ _)).then_reresolve _ _)

theorem timeCell_replies (a : TimeCellParams) : s.Replies s.Posts (s.timeCell o a) := by
  unfold State.timeCell
  split
  · exact .refused _ (by decide)
  · split
    · rename_i error
      exact .refused _ (ownCell_error error)
    · extract_lets slot instant
      split
      · exact .refused _ (by decide)
      · split
        · exact installAnchor_replies s o a _
        · exact .refused _ (by decide)

theorem storeLevels_posts (pairs : List (Nat × Int)) (n : Tally) : s.Posts (s.storeLevels o pairs n).1 := by
  induction pairs generalizing s n with
  | nil => exact .refl s
  | cons x rest ih =>
    unfold State.storeLevels
    split
    · exact ih s _
    · exact (State.Posts.updateCell s _ _).trans (ih _ _)

theorem evaluate_posts (v : Int) (i : Nat) (c : Cell) : s.Posts (s.evaluate o v i c).1 := by
  have stored : ∀ c', s.Posts (s.setCell i c') := fun _ => .of_pi rfl
  unfold State.evaluate
  extract_lets g l n raise s1
  split
  · by_cases raised : raise = true
    · rw [if_pos raised]
      exact (stored _).trans (.post _ _ _ _ _ _ _)
    · rw [if_neg raised]
      exact stored _
  · exact stored _

theorem evaluateAll_posts (v : Int) (l : List (Nat × Cell)) (n : Nat) : s.Posts (s.evaluateAll o v l n).1 := by
  induction l generalizing s n with
  | nil => exact .refl s
  | cons x rest ih => exact (evaluate_posts s o v x.1 x.2).trans (ih _ _)

theorem measureReport_answers (pairs : List (Nat × Int)) : s.Answers s.Posts (s.measureReport o pairs) := by
  unfold State.measureReport
  split
  · exact .refused _ (by decide)
  · have stored := storeLevels_posts s o pairs ⟨0, 0, 0, 0⟩
    dsimp only
    split
    · exact .accepted _ _ stored
    · exact .accepted _ _ (stored.trans (evaluateAll_posts _ o _ _ _))

end

/-! ### The reservation commands -/

section
variable (s : State) (o : Owner)

theorem admitRecord_posts {r : Record} {h : Nat} {t : State} (ha : s.admitRecord r = some (h, t)) : s.Posts t := by
  unfold State.admitRecord at ha
  split at ha
  · cases ha
  · cases ha
    have stored : s.Posts (s.setRecord h (some r)) := .of_pi rfl
    split
    · exact stored.trans (.updateCell _ _ _)
    · exact stored

theorem admitReserve_replies (r : Record) (nominal : LocalTime) : s.Replies s.Posts (s.admitReserve r nominal) := by
  unfold State.admitReserve
  split
  · exact .refused _ (by decide)
  · rename_i h t admitted
    exact run_replies (w := { Work.of t with admitting := some h }) (admitRecord_posts s admitted)

theorem reserveBound_replies (r : Record) : s.Replies s.Posts (s.reserveBound o r) := by
  unfold State.reserveBound
  split
  · rename_i error
    exact .refused _ (bindingEntry_error error)
  · split
    · exact .refused _ (by decide)
    · split
      · exact .refused _ (by decide)
      · split
        · exact .refused _ (by decide)
        · split
          · exact .refused _ (by decide)
          · exact .refused _ (by decide)
          · split
            · exact admitReserve_replies s _ _
            · exact .refused _ (by decide)

theorem reserve_replies (a : ReserveParams) : s.Replies s.Posts (s.reserve o a) := by
  unfold State.reserve
  split
  · exact .refused _ (by decide)
  · split
    · exact .refused _ (by decide)
    · exact reserveBound_replies s o _

theorem amend_answers (a : AmendParams) : s.Answers s.Posts (s.amend o a) := by
  unfold State.amend
  split
  · exact .refused _ (by decide)
  · split
    · rename_i error
      exact .refused _ (plainRecord_error error)
    · split
      · exact .refused _ (by decide)
      · exact .accepted _ _ (.of_pi rfl)

theorem cancelOccurrence_planned (h : Nat) (r : Record) : Planned s (s.cancelOccurrence h r).1 := by
  unfold State.cancelOccurrence
  split
  · exact (Planned.endPart s h _).trans (.postWindowEnd _ _ _ _ _ _)
  · exact .postWindowEnd _ _ _ _ _ _
  · exact .refl s
  · exact .refl s
  · exact .refl s

theorem cancel_answers (h : Nat) : s.Answers s.Posts (s.cancel o h) := by
  unfold State.cancel
  split
  · rename_i error
    exact .refused _ (plainRecord_error error)
  · exact .accepted _ _ (.of_planned ((cancelOccurrence_planned s h _).trans (.removeRecord _ _)))

theorem readRecordOf_answers (h : Nat) : s.Answers s.Posts (s.readRecordOf o h) := by
  unfold State.readRecordOf
  split
  · rename_i error
    exact .refused _ (ownRecord_error error)
  · exact .accepted _ _ (.refl s)

end

/-! ### The commands of the policy, the timeline and the windows -/

section
variable (s : State) (o : Owner)

theorem setPolicy_answers (t1 t2 t3 guard : Nat) : s.Answers s.Posts (s.setPolicy t1 t2 t3 guard) := by
  unfold State.setPolicy
  split
  · exact .refused _ (by decide)
  · exact .accepted _ _ (.of_pi rfl)

theorem readTimeline_answers (position : Nat) : s.Answers s.Posts (s.readTimeline position) := by
  unfold State.readTimeline
  split
  · exact .refused _ (by decide)
  · exact .accepted _ _ (.refl s)

theorem setProfile_answers (i band channel gain antenna : Nat) :
    s.Answers s.Posts (s.setProfile o i band channel gain antenna) := by
  unfold State.setProfile
  split
  · exact .refused _ (by decide)
  · exact .accepted _ _ (.of_pi rfl)

theorem endWindow_replies (h : Nat) : s.Replies s.Posts (s.endWindow o h) := by
  unfold State.endWindow
  split
  · rename_i error
    exact .refused _ (ownRecord_error error)
  · split
    · exact run_replies (.of_planned
        (((Planned.endPart s h _).trans (.postWindowEnd _ _ _ _ _ _)).trans (.refreshWindows _)))
    · exact .refused _ (by decide)

end

/-! ### The call commands -/

section
variable (s : State) (o : Owner)

theorem admitCall_replies (a : CallParams) (rx tx : Burst) : s.Replies s.Posts (s.admitCall o a rx tx) := by
  unfold State.admitCall
  dsimp only
  split
  · exact .refused _ (by decide)
  · rename_i received
    split
    · exact .refused _ (by decide)
    · rename_i transmitted
      exact run_replies (((admitRecord_posts s received).trans (admitRecord_posts _ transmitted)).trans (.of_pi rfl))

theorem callStart_replies (a : CallParams) : s.Replies s.Posts (s.callStart o a) := by
  unfold State.callStart
  split
  · exact .refused _ (by decide)
  · split
    · exact .refused _ (by decide)
    · split
      · exact .refused _ (by decide)
      · split
        · exact .refused _ (by decide)
        · split
          · exact .refused _ (by decide)
          · split
            · exact .refused _ (by decide)
            · split
              · exact .refused _ (by decide)
              · split
                · exact .refused _ (by decide)
                · exact admitCall_replies s o a _ _

theorem endBurst_planned (h : Option Nat) : Planned s (s.endBurst h).1 := by
  unfold State.endBurst
  split
  · exact .refl s
  · split
    · exact .refl s
    · split
      · exact .updateRecord s _ _ fun _ => id
      · exact (Planned.informCall s _ _ _ _).trans (.removeRecord _ _)

theorem callEnd_answers : s.Answers s.Posts (s.callEnd o) := by
  unfold State.callEnd
  split
  · exact .refused _ (by decide)
  · rename_i c _
    split
    · exact .refused _ (by decide)
    · have ended := ((Planned.setCall s o (some { c with state := .ending })).trans
        (endBurst_planned _ c.rxHandle)).trans (endBurst_planned _ c.txHandle)
      refine .accepted _ _ (.of_planned ?_)
      split
      · exact ended
      · exact ended.trans (.setCall _ _ _)

theorem readCall_answers : s.Answers s.Posts (s.readCall o) := by
  unfold State.readCall
  split
  · exact .accepted _ _ (.refl s)
  · split
    · exact .accepted _ _ (.refl s)
    · exact .accepted _ _ (.of_pi rfl)

end

/-! ### The exchange commands -/

section
variable (s : State) (o : Owner)

theorem admitSteps_posts {s t : State} {l : List Record} {hs : List Nat} (ha : s.admitSteps l = some (t, hs)) :
    s.Posts t := by
  induction l generalizing s hs with
  | nil =>
    cases ha
    exact .refl _
  | cons r rest ih =>
    unfold State.admitSteps at ha
    split at ha
    · cases ha
    · rename_i h u admitted
      obtain ⟨⟨v, l⟩, more, same⟩ := Option.map_eq_some_iff.mp ha
      cases same
      exact (admitRecord_posts s admitted).trans (ih more)

theorem admitExchange_replies (a : ExchangeParams) (j entry : Nat) (ps : List PlacedStep) :
    s.Replies s.Posts (s.admitExchange o a j entry ps) := by
  unfold State.admitExchange
  split
  · exact .refused _ (by decide)
  · rename_i i _
    split
    · exact .refused _ (by decide)
    · rename_i t handles admitted
      exact run_replies (w := { Work.of (t.setExchange i _) with submitting := some i })
        ((admitSteps_posts admitted).trans (.of_pi rfl))

theorem submit_replies (a : ExchangeParams) : s.Replies s.Posts (s.submit o a) := by
  unfold State.submit
  split
  · exact .refused _ (by decide)
  · split
    · exact .refused _ (by decide)
    · split
      · exact .refused _ (by decide)
      · split
        · exact .refused _ (by decide)
        · split
          · exact .refused _ (by decide)
          · split
            · exact .refused _ (by decide)
            · split
              · exact .refused _ (by decide)
              · split
                · exact .refused _ (by decide)
                · split
                  · exact .refused _ (by decide)
                  · exact .refused _ (by decide)
                  · exact admitExchange_replies s o a _ _ _

theorem cancelExchange_answers (i : Nat) : s.Answers s.Posts (s.cancelExchange o i) := by
  unfold State.cancelExchange
  split
  · rename_i error
    exact .refused _ (ownExchange_error error)
  · split
    · exact .refused _ (by decide)
    · split
      · exact .accepted _ _ (.of_pi rfl)
      · exact .accepted _ _ (.of_planned (Planned.abandon (Work.of s) _ _ _ _ _))

theorem readExchangeOf_answers (i : Nat) : s.Answers s.Posts (s.readExchangeOf o i) := by
  unfold State.readExchangeOf
  split
  · rename_i error
    exact .refused _ (ownExchange_error error)
  · exact .accepted _ _ (.refl s)

end

/-! ### The handover commands -/

section
variable (s : State) (o : Owner)

theorem abandonStraddling_planned (w : Work) (source : Nat) (ts : LocalTime) (l : List (Nat × Exchange)) :
    Planned w.st (w.abandonStraddling o source ts l).1.st := by
  induction l generalizing w with
  | nil => exact .refl _
  | cons x rest ih =>
    unfold Work.abandonStraddling
    split
    · exact (Planned.abandon w _ _ _ _ _).trans (ih _)
    · exact ih w

theorem acceptHandover_replies (ho : Handover) : s.Replies s.Posts (s.acceptHandover o ho) := by
  have straddled := abandonStraddling_planned o (Work.of (s.setHandover o (some ho))) ho.source ho.ts
    (s.setHandover o (some ho)).exchangeList
  unfold State.acceptHandover
  have pending : s.Posts (s.setHandover o (some ho)) := .of_pi rfl
  exact run_replies ((pending.trans (.of_planned (straddled.trans (.refreshWindows _)))).then_reresolve _ _)

theorem handoverTo_replies (source target : Nat) (time : CellTime) :
    s.Replies s.Posts (s.handoverTo o source target time) := by
  unfold State.handoverTo
  split
  · exact .refused _ (by decide)
  · split
    · exact .refused _ (by decide)
    · split
      · exact .refused _ (by decide)
      · split
        · exact .refused _ (by decide)
        · split
          · exact .refused _ (by decide)
          · exact acceptHandover_replies s o _

theorem handover_replies (target : Nat) (time : CellTime) : s.Replies s.Posts (s.handover o target time) := by
  unfold State.handover
  split
  · exact .refused _ (by decide)
  · split
    · exact .refused _ (by decide)
    · split
      · exact .refused _ (by decide)
      · exact handoverTo_replies s o _ target time

theorem revertTo_replies (v : RevertWindow) (time : CellTime) : s.Replies s.Posts (s.revertTo o v time) := by
  unfold State.revertTo
  split
  · exact .refused _ (by decide)
  · split
    · exact .refused _ (by decide)
    · split
      · exact .refused _ (by decide)
      · dsimp only
        split
        · exact acceptHandover_replies s o _
        · exact .refused _ (by decide)

theorem handoverRevert_replies (time : CellTime) : s.Replies s.Posts (s.handoverRevert o time) := by
  unfold State.handoverRevert
  split
  · exact .refused _ (by decide)
  · split
    · exact .refused _ (by decide)
    · split
      · exact .refused _ (by decide)
      · exact revertTo_replies s o _ time

/-- Undoing a handover re-resolves what stands on its target (R147, R149). -/
theorem undoHandover_posts {ho : Handover} {w : Work} (h : s.undoHandover o ho = some w) : s.Posts w.st := by
  have none : s.Posts (s.setHandover o none) := .of_pi rfl
  exact (none.then_reresolve _ _).trans (.run h)

theorem handoverCancel_replies : s.Replies s.Posts (s.handoverCancel o) := by
  unfold State.handoverCancel
  split
  · exact .refused _ (by decide)
  · intro a ha
    obtain ⟨w, undone, rfl⟩ := Option.map_eq_some_iff.mp ha
    exact .accepted _ _ (undoHandover_posts s o undone)

end

/-! ### The reads of an owner named by port or by byte (R117, R136) -/

theorem readCallFor_answers (s : State) (p : Port) (which : Option Nat) :
    s.Answers s.Posts (match readOwner p which with
      | some o => s.readCall o
      | none => refuse s .badParam) := by
  split
  · exact readCall_answers s _
  · exact .refused _ (by decide)

theorem readHandoverFor_answers (s : State) (p : Port) (which : Option Nat) :
    s.Answers s.Posts (match readOwner p which with
      | some o => accept s (s.handoverResult o)
      | none => refuse s .badParam) := by
  split
  · exact .accepted _ _ (.refl s)
  · exact .refused _ (by decide)

/-! ### The sleep commands -/

theorem calibrate_answers (s : State) : s.Answers s.Posts s.calibrate := by
  unfold State.calibrate
  split
  · exact .refused _ (by decide)
  · exact .accepted _ _ (.of_pi rfl)

end Sys2Proof.Machine
end

section
namespace Sys2Proof.Machine

/-! ### How a command's row ends (R180) -/

/-- What an accepted command leaves: the ports sound, and no answer of its own in its port's slot. -/
structure State.Serves (s : State) (p : Port) (u : State) : Prop where
  keeps : s.KeepsPorts u
  unanswered : ∀ n st rs, (u.port p).slot ≠ .done n st rs

/-- The states in which a ready command's row can end. -/
inductive State.Completes (s : State) (p : Port) : State → Prop
  | refused (st : Status) (h : st ≠ .ok) : s.Completes p (s.complete p st [])
  | accepted (u : State) (rs : List Byte) (h : s.Serves p u) : s.Completes p (u.complete p .ok rs)
  | settled (u : State) (rs : List Byte) (h : s.Serves p u) : s.Completes p (State.settle s (u.complete p .ok rs))

section
variable {s t u : State} {p : Port} {i : Instr}

theorem ready_slot (h : s.ready p i = true) : ∃ n, (s.port p).slot = .pending n := ((ready_iff s p i).mp h).2.1

/-- On a port that is sound, a ready command finds it enabled. -/
theorem ready_enabled (h : s.ready p i = true) (out : (s.port p).outSound) : (s.port p).enabled = true :=
  have ⟨_, slot⟩ := ready_slot h
  PortState.enabled_of_pending out slot

theorem State.KeepsPorts.serves (keeps : s.KeepsPorts u) (ready : s.ready p i = true)
    (slot : (u.port p).slot = (s.port p).slot) : s.Serves p u := by
  obtain ⟨n, pending⟩ := ready_slot ready
  exact ⟨keeps, by simp [slot, pending]⟩

theorem State.Posts.serves (h : s.Posts u) (ready : s.ready p i = true) : s.Serves p u :=
  (State.KeepsPorts.of_posts h).serves ready (h p).slot

/-- How a command's row ends: idle where its frame does not wait at its port, completed where it does. -/
def State.Ends (s : State) (p : Port) (i : Instr) : Prop :=
  ∀ t, exec i s = .next t → (s.ready p i = false ∧ t = s) ∨ (s.ready p i = true ∧ s.Completes p t)

theorem command_ends {body : State → Answer} (row : exec i s = s.command p i body)
    (answers : s.ready p i = true → s.Answers (s.Serves p) (body s)) : s.Ends p i := fun t he => by
  rcases command_cases (row.symm.trans he) with idle | ⟨ready, rfl⟩
  · exact .inl idle
  · refine .inr ⟨ready, ?_⟩
    generalize body s = a at answers ⊢
    cases answers ready with
    | refused st h => exact .refused st h
    | accepted u rs h => exact .accepted u rs h

theorem planCommand_ends {body : State → Reply} (row : exec i s = s.planCommand p i body)
    (replies : s.ready p i = true → s.Replies (s.Serves p) (body s)) : s.Ends p i := fun t he => by
  rcases planCommand_cases (row.symm.trans he) with idle | ⟨u, st, rs, ready, hb, ending⟩
  · exact .inl idle
  · refine .inr ⟨ready, ?_⟩
    cases replies ready _ hb with
    | refused st h =>
      rcases ending with ⟨rfl, -⟩ | ⟨-, rfl⟩
      · exact absurd rfl h
      · exact .refused st h
    | accepted u rs h =>
      rcases ending with ⟨-, rfl⟩ | ⟨h', -⟩
      · exact .settled u rs h
      · exact absurd rfl h'

/-- A command row whose block does no more than post events. -/
theorem command_ends_of_posts {body : State → Answer} (row : exec i s = s.command p i body)
    (answers : s.Answers s.Posts (body s)) : s.Ends p i :=
  command_ends row fun ready => answers.mono fun _ posts => posts.serves ready

theorem planCommand_ends_of_posts {body : State → Reply} (row : exec i s = s.planCommand p i body)
    (replies : s.Replies s.Posts (body s)) : s.Ends p i :=
  planCommand_ends row fun ready => replies.mono fun _ posts => posts.serves ready

theorem State.Completes.keeps (h : s.Completes p t) : s.KeepsPorts t := by
  cases h with
  | refused st _ => exact .complete s p st []
  | accepted u rs h => exact h.keeps.trans (.complete u p _ _)
  | settled u rs h => exact (h.keeps.trans (.complete u p _ _)).trans (.settle _ _)

/-- A completed port answers OK, or holds no answer. -/
theorem State.Serves.complete_slot (h : s.Serves p u) (rs : List Byte) {n : Nat} {st : Status} {results : List Byte}
    (slot : ((u.complete p .ok rs).port p).slot = .done n st results) : st = .ok := by
  by_cases pending : ∃ m, (u.port p).slot = .pending m
  · obtain ⟨m, hm⟩ := pending
    rw [complete_pending u p m .ok rs hm, port_setPort, if_pos rfl] at slot
    cases slot
    rfl
  · rw [complete_other u p .ok rs (not_exists.mp pending)] at slot
    exact absurd slot (h.unanswered n st results)

end

/-! ### The commands that rewrite a port (R155, R185 to R189) -/

section
variable {s : State} {p : Port} {i : Instr}

theorem port_of_owner? {o : Owner} (h : p.owner? = some o) : o.port = p := by
  cases p <;> cases h <;> rfl

theorem Owner.port_ne_policy (o : Owner) : o.port ≠ .policy := by cases o <;> decide

theorem castVote_answers (ready : s.ready p i = true) (value : Nat) :
    s.Answers (s.Serves p) (s.castVote p value) := by
  unfold State.castVote
  split
  · exact .refused _ (by decide)
  · rename_i v _
    refine .accepted _ _ (State.KeepsPorts.serves ?_ ready (by simp))
    exact .setPort s p _ ⟨id, id, fun out => PortState.outSound_of_enabled (ready_enabled ready out)⟩ fun _ => id

theorem fetch_answers (ready : s.ready p i = true) :
    s.Answers (s.Serves p) (accept
      (s.setPort p { s.port p with queue := (s.port p).queue.drop 6, overflowCount := 0 })
      (s.port p).fetchResult) := by
  refine .accepted _ _ (State.KeepsPorts.serves ?_ ready (by simp))
  exact .setPort s p _ ⟨fun h => by simp; omega, fun _ => by simp,
    fun out => PortState.outSound_of_enabled (ready_enabled ready out)⟩ fun _ => id

/-- Another port rewritten without an answer leaves the PENDING slot of the command's own. -/
theorem setPort_unanswered (ready : s.ready p i = true) (q : Port) (x : PortState)
    (hx : ∀ n st rs, x.slot ≠ .done n st rs) (n : Nat) (st : Status) (rs : List Byte) :
    ((s.setPort q x).port p).slot ≠ .done n st rs := by
  obtain ⟨m, pending⟩ := ready_slot ready
  rw [port_setPort]
  split
  · exact hx n st rs
  · simp [pending]

theorem enablePort_answers (ready : s.ready p i = true) (which : Nat) :
    s.Answers (s.Serves p) (s.enablePort which) := by
  unfold State.enablePort
  split
  · exact .refused _ (by decide)
  · rename_i o _
    split
    · exact .accepted _ _ ((State.KeepsPorts.refl s).serves ready rfl)
    · refine .accepted _ _ ⟨.setPort s o.port _ ?_ fun _ _ => rfl,
        setPort_unanswered ready _ _ (by simp [PortState.enable])⟩
      exact ⟨fun _ => Nat.zero_le _, fun _ => Nat.zero_le _, fun _ => PortState.outSound_of_enabled rfl⟩

theorem portReset_pi (s : State) (o : Owner) : (s.portReset o).pi = s.pi := rfl

theorem disablePort_answers (ready : s.ready p i = true) (which : Nat) :
    s.Answers (s.Serves p) (s.disablePort which) := by
  unfold State.disablePort
  split
  · exact .refused _ (by decide)
  · rename_i o _
    split
    · have reset : s.KeepsPorts (s.portReset o) := .of_pi (portReset_pi s o)
      have ready' : (s.portReset o).ready p i = true := ready
      refine .accepted _ _ ⟨reset.trans (.setPort _ o.port _ ?_ fun same => absurd same (Owner.port_ne_policy o)),
        setPort_unanswered ready' _ _ (by simp [PortState.disable])⟩
      exact ⟨fun _ => Nat.zero_le _, fun _ => Nat.zero_le _, fun _ _ => ⟨rfl, rfl, rfl, rfl, rfl⟩⟩
    · exact .accepted _ _ ((State.KeepsPorts.refl s).serves ready rfl)

theorem resetPort_answers {o : Owner} (ready : s.ready o.port i = true) :
    s.Answers (s.Serves o.port) (s.resetPort o) := by
  have reset : s.KeepsPorts (s.portReset o) := .of_pi (portReset_pi s o)
  have emptied : (s.portReset o).KeepsPorts ((s.portReset o).setPort o.port
      { ((s.portReset o).port o.port).emptied with vote := some .hold }) :=
    .setPort _ o.port _ ⟨fun _ => Nat.zero_le _, fun _ => Nat.zero_le _,
      fun (out : (s.port o.port).outSound) => PortState.outSound_of_enabled (ready_enabled ready out)⟩ fun _ => id
  have posted := (reset.trans emptied).trans (.of_posts (.postPort _ .policy .portReset o.code .none 0 0))
  refine .accepted _ _ (posted.serves ready ?_)
  show (State.port (State.postPort _ _ _ _ _ _ _) o.port).slot = _
  rw [port_postPort, if_neg (Owner.port_ne_policy o), port_setPort, if_pos rfl]
  rfl

theorem resetPort_replies (ready : s.ready p i = true) :
    s.Replies (s.Serves p) (withOwnerReply p s (fun o => some (s.resetPort o))) := by
  unfold withOwnerReply
  split
  · rename_i o owner
    cases port_of_owner? owner
    exact (resetPort_answers ready).replies
  · exact .refused _ (by decide)

/-- A chip reset leaves every port sound, and none with an answer (R189, R190). -/
theorem chipReset_serves (s : State) (p : Port) : s.Serves p s.chipReset := by
  obtain ⟨-, -, -, -, -, -, -, -, -, -, -, -, -, -, subs, policy, -⟩ := chipReset_resets s
  have subA := subs .a
  have subB := subs .b
  refine ⟨⟨fun _ q => ?_, fun _ => ⟨by rw [policy]; rfl, fun q => ?_⟩⟩, fun n st rs => ?_⟩
  · cases q with
    | subA => rw [show Port.subA = Owner.a.port from rfl, subA]; exact ⟨Nat.zero_le _, Nat.zero_le _⟩
    | subB => rw [show Port.subB = Owner.b.port from rfl, subB]; exact ⟨Nat.zero_le _, Nat.zero_le _⟩
    | policy =>
      rw [policy]
      cases s.tb.run <;> simp [State.reset, State.port, PerPort.get]
  · cases q with
    | subA => rw [show Port.subA = Owner.a.port from rfl, subA]; exact fun _ => ⟨rfl, rfl, rfl, rfl, rfl⟩
    | subB => rw [show Port.subB = Owner.b.port from rfl, subB]; exact fun _ => ⟨rfl, rfl, rfl, rfl, rfl⟩
    | policy => rw [policy]; exact PortState.outSound_of_enabled rfl
  · cases p with
    | subA => rw [show Port.subA = Owner.a.port from rfl, subA]; exact fun h => by cases h
    | subB => rw [show Port.subB = Owner.b.port from rfl, subB]; exact fun h => by cases h
    | policy => rw [policy]; exact fun h => by cases h

end

/-! ### Every command's row -/

/-- A command that PI reads off a port's frame is one of that port, with the frame's number (R179). -/
theorem commandOf_command? {p : Port} {m : Nat} {ps : List Byte} {i : Instr} (h : commandOf p m ps = some i) :
    i.command? = some (p, m) := by
  unfold commandOf at h
  split at h <;> cases h <;> rfl

theorem parseFrame_command? {p : Port} {m : Nat} {ps : List Byte} {i : Instr} (h : parseFrame p m ps = .command i) :
    i.command? = some (p, m) := by
  unfold parseFrame at h
  split at h
  · cases h
  · split at h
    · split at h
      · split at h
        · rename_i c hc
          cases h
          exact commandOf_command? hc
        · cases h
      · cases h
    · cases h

theorem ready_command? {s : State} {p : Port} {i : Instr} (h : s.ready p i = true) : ∃ m, i.command? = some (p, m) :=
  have ⟨_, _, f, _, parsed⟩ := (ready_iff s p i).mp h
  ⟨f.number, parseFrame_command? parsed⟩

/-! ### The form of each row (section 10.3) -/

theorem exec_addCell (p : Port) (channel code : Nat) (s : State) :
    exec (.addCell p channel code) s
      = s.command p (.addCell p channel code) (fun t => withOwner p t (fun o => t.addCell o channel code)) := rfl

theorem exec_removeCell (p : Port) (index : Nat) (s : State) :
    exec (.removeCell p index) s
      = s.command p (.removeCell p index) (fun t => withOwner p t (fun o => t.removeCell o index)) := rfl

theorem exec_readCell (p : Port) (index : Nat) (s : State) :
    exec (.readCell p index) s
      = s.command p (.readCell p index) (fun t => withOwner p t (fun o => t.readCellOf o index)) := rfl

theorem exec_setServing (p : Port) (index : Nat) (s : State) :
    exec (.setServing p index) s
      = s.command p (.setServing p index) (fun t => withOwner p t (fun o => t.setServing o index)) := rfl

theorem exec_clearServing (p : Port) (s : State) :
    exec (.clearServing p) s
      = s.command p (.clearServing p) (fun t => withOwner p t (fun o => t.clearServing o)) := rfl

theorem exec_timeCell (p : Port) (a : TimeCellParams) (s : State) :
    exec (.timeCell p a) s
      = s.planCommand p (.timeCell p a) (fun t => withOwnerReply p t (fun o => t.timeCell o a)) := rfl

theorem exec_measureReport (p : Port) (pairs : List (Nat × Int)) (s : State) :
    exec (.measureReport p pairs) s
      = s.command p (.measureReport p pairs) (fun t => withOwner p t (fun o => t.measureReport o pairs)) := rfl

theorem exec_setTrigger (p : Port) (hysteresis trigger : Nat) (s : State) :
    exec (.setTrigger p hysteresis trigger) s
      = s.command p (.setTrigger p hysteresis trigger) (fun t =>
          withOwner p t (fun o => t.setTrigger o hysteresis trigger)) := rfl

theorem exec_reserve (p : Port) (a : ReserveParams) (s : State) :
    exec (.reserve p a) s
      = s.planCommand p (.reserve p a) (fun t => withOwnerReply p t (fun o => t.reserve o a)) := rfl

theorem exec_amend (p : Port) (a : AmendParams) (s : State) :
    exec (.amend p a) s = s.command p (.amend p a) (fun t => withOwner p t (fun o => t.amend o a)) := rfl

theorem exec_cancel (p : Port) (handle : Nat) (s : State) :
    exec (.cancel p handle) s
      = s.planCommand p (.cancel p handle) (fun t => withOwnerReply p t (fun o => some (t.cancel o handle))) := rfl

theorem exec_readReservation (p : Port) (handle : Nat) (s : State) :
    exec (.readReservation p handle) s
      = s.command p (.readReservation p handle) (fun t => withOwner p t (fun o => t.readRecordOf o handle)) := rfl

theorem exec_setProfile (p : Port) (index band channel gain antenna : Nat) (s : State) :
    exec (.setProfile p index band channel gain antenna) s
      = s.command p (.setProfile p index band channel gain antenna) (fun t =>
          withOwner p t (fun o => t.setProfile o index band channel gain antenna)) := rfl

theorem exec_endWindow (p : Port) (handle : Nat) (s : State) :
    exec (.endWindow p handle) s
      = s.planCommand p (.endWindow p handle) (fun t => withOwnerReply p t (fun o => t.endWindow o handle)) := rfl

theorem exec_callStart (p : Port) (a : CallParams) (s : State) :
    exec (.callStart p a) s
      = s.planCommand p (.callStart p a) (fun t => withOwnerReply p t (fun o => t.callStart o a)) := rfl

theorem exec_callEnd (p : Port) (s : State) :
    exec (.callEnd p) s
      = s.planCommand p (.callEnd p) (fun t => withOwnerReply p t (fun o => some (t.callEnd o))) := rfl

theorem exec_readExchange (p : Port) (index : Nat) (s : State) :
    exec (.readExchange p index) s
      = s.command p (.readExchange p index) (fun t => withOwner p t (fun o => t.readExchangeOf o index)) := rfl

theorem exec_vote (p : Port) (value : Nat) (s : State) :
    exec (.vote p value) s = s.command p (.vote p value) (fun t => t.castVote p value) := rfl

theorem exec_setSleep (p : Port) (a : SleepParams) (s : State) :
    exec (.setSleep p a) s = s.command p (.setSleep p a) (fun t => t.setSleep a) := rfl

theorem exec_calibrate (p : Port) (s : State) :
    exec (.calibrate p) s = s.command p (.calibrate p) (fun t => t.calibrate) := rfl

theorem exec_fetchEvents (p : Port) (s : State) :
    exec (.fetchEvents p) s
      = s.command p (.fetchEvents p) (fun t =>
          accept (t.setPort p { t.port p with queue := (t.port p).queue.drop 6, overflowCount := 0 })
            (t.port p).fetchResult) := rfl

theorem exec_enablePort (p : Port) (which : Nat) (s : State) :
    exec (.enablePort p which) s = s.command p (.enablePort p which) (fun t => t.enablePort which) := rfl

theorem exec_disablePort (p : Port) (which : Nat) (s : State) :
    exec (.disablePort p which) s
      = s.planCommand p (.disablePort p which) (fun t => some (t.disablePort which)) := rfl

theorem exec_resetPort (p : Port) (s : State) :
    exec (.resetPort p) s
      = s.planCommand p (.resetPort p) (fun t => withOwnerReply p t (fun o => some (t.resetPort o))) := rfl

/-- Every command's row ends idle, refused or accepted (R180; notes/assumptions/2). -/
theorem exec_command_ends {p : Port} {i : Instr} {m : Nat} (hi : i.command? = some (p, m)) (s : State) :
    s.Ends p i := by
  cases i with
  | readTime _ =>
    cases hi
    exact command_ends_of_posts (exec_readTime p s) (.accepted s _ (.refl s))
  | releaseCapture _ =>
    cases hi
    exact command_ends_of_posts (exec_releaseCapture p s) (withOwner_answers fun _ => .accepted _ _ (.of_pi rfl))
  | addCell _ channel code =>
    cases hi
    exact command_ends_of_posts (exec_addCell p channel code s)
      (withOwner_answers fun o => addCell_answers s o channel code)
  | removeCell _ index =>
    cases hi
    exact command_ends_of_posts (exec_removeCell p index s)
      (withOwner_answers fun o => removeCell_answers s o index)
  | readCell _ index =>
    cases hi
    exact command_ends_of_posts (exec_readCell p index s) (withOwner_answers fun o => readCellOf_answers s o index)
  | setServing _ index =>
    cases hi
    exact command_ends_of_posts (exec_setServing p index s)
      (withOwner_answers fun o => setServing_answers s o index)
  | clearServing _ =>
    cases hi
    exact command_ends_of_posts (exec_clearServing p s) (withOwner_answers fun o => clearServing_answers s o)
  | timeCell _ a =>
    cases hi
    exact planCommand_ends_of_posts (exec_timeCell p a s) (withOwnerReply_replies fun o => timeCell_replies s o a)
  | measureReport _ pairs =>
    cases hi
    exact command_ends_of_posts (exec_measureReport p pairs s)
      (withOwner_answers fun o => measureReport_answers s o pairs)
  | setTrigger _ hysteresis trigger =>
    cases hi
    exact command_ends_of_posts (exec_setTrigger p hysteresis trigger s)
      (withOwner_answers fun _ => .accepted _ _ (.of_pi rfl))
  | reserve _ a =>
    cases hi
    exact planCommand_ends_of_posts (exec_reserve p a s) (withOwnerReply_replies fun o => reserve_replies s o a)
  | amend _ a =>
    cases hi
    exact command_ends_of_posts (exec_amend p a s) (withOwner_answers fun o => amend_answers s o a)
  | cancel _ handle =>
    cases hi
    exact planCommand_ends_of_posts (exec_cancel p handle s)
      (withOwnerReply_replies fun o => (cancel_answers s o handle).replies)
  | readReservation _ handle =>
    cases hi
    exact command_ends_of_posts (exec_readReservation p handle s)
      (withOwner_answers fun o => readRecordOf_answers s o handle)
  | setPolicy _ t1 t2 t3 guard =>
    cases hi
    exact planCommand_ends_of_posts (exec_setPolicy p t1 t2 t3 guard s) (setPolicy_answers s t1 t2 t3 guard).replies
  | readPolicy _ =>
    cases hi
    exact command_ends_of_posts (exec_readPolicy p s) (.accepted s _ (.refl s))
  | readTimeline _ position =>
    cases hi
    exact command_ends_of_posts (exec_readTimeline p position s) (readTimeline_answers s position)
  | setProfile _ index band channel gain antenna =>
    cases hi
    exact command_ends_of_posts (exec_setProfile p index band channel gain antenna s)
      (withOwner_answers fun o => setProfile_answers s o index band channel gain antenna)
  | endWindow _ handle =>
    cases hi
    exact planCommand_ends_of_posts (exec_endWindow p handle s)
      (withOwnerReply_replies fun o => endWindow_replies s o handle)
  | callStart _ a =>
    cases hi
    exact planCommand_ends_of_posts (exec_callStart p a s) (withOwnerReply_replies fun o => callStart_replies s o a)
  | callEnd _ =>
    cases hi
    exact planCommand_ends_of_posts (exec_callEnd p s)
      (withOwnerReply_replies fun o => (callEnd_answers s o).replies)
  | readCall _ which =>
    cases hi
    exact command_ends_of_posts (exec_readCall p which s) (readCallFor_answers s p which)
  | exchangeSubmit _ a =>
    cases hi
    exact planCommand_ends_of_posts (exec_exchangeSubmit p a s)
      (withOwnerReply_replies fun o => submit_replies s o a)
  | exchangeCancel _ index =>
    cases hi
    exact planCommand_ends_of_posts (exec_exchangeCancel s index p)
      (withOwnerReply_replies fun o => (cancelExchange_answers s o index).replies)
  | readExchange _ index =>
    cases hi
    exact command_ends_of_posts (exec_readExchange p index s)
      (withOwner_answers fun o => readExchangeOf_answers s o index)
  | handover _ target time =>
    cases hi
    exact planCommand_ends_of_posts (exec_handover p target time s)
      (withOwnerReply_replies fun o => handover_replies s o target time)
  | handoverCancel _ =>
    cases hi
    exact planCommand_ends_of_posts (exec_handoverCancel p s)
      (withOwnerReply_replies fun o => handoverCancel_replies s o)
  | handoverRevert _ time =>
    cases hi
    exact planCommand_ends_of_posts (exec_handoverRevert p time s)
      (withOwnerReply_replies fun o => handoverRevert_replies s o time)
  | readHandover _ which =>
    cases hi
    exact command_ends_of_posts (exec_readHandover p which s) (readHandoverFor_answers s p which)
  | vote _ value =>
    cases hi
    exact command_ends (exec_vote p value s) fun ready => castVote_answers ready value
  | setSleep _ a =>
    cases hi
    exact command_ends_of_posts (exec_setSleep p a s) (.accepted _ _ (.of_pi rfl))
  | readSleep _ =>
    cases hi
    exact command_ends_of_posts (exec_readSleep p s) (.accepted s _ (.refl s))
  | calibrate _ =>
    cases hi
    exact command_ends_of_posts (exec_calibrate p s) (calibrate_answers s)
  | fetchEvents _ =>
    cases hi
    exact command_ends (exec_fetchEvents p s) fetch_answers
  | enablePort _ which =>
    cases hi
    exact command_ends (exec_enablePort p which s) fun ready => enablePort_answers ready which
  | disablePort _ which =>
    cases hi
    exact planCommand_ends (exec_disablePort p which s) fun ready => (disablePort_answers ready which).replies
  | resetPort _ =>
    cases hi
    exact planCommand_ends (exec_resetPort p s) resetPort_replies
  | resetChip _ =>
    cases hi
    exact command_ends (exec_resetChip p s) fun _ => .accepted _ _ (chipReset_serves s p)
  | _ => cases hi

/-- Every command's row keeps the ports. -/
theorem exec_command_keeps {s t : State} {p : Port} {i : Instr} {m : Nat} (hi : i.command? = some (p, m))
    (he : exec i s = .next t) : s.KeepsPorts t := by
  rcases exec_command_ends hi s t he with ⟨-, rfl⟩ | ⟨-, completes⟩
  · exact .refl t
  · exact completes.keeps

/-- Settles O7: a row that refuses completes its port with the status and changes nothing else; one that accepts answers
OK. -/
theorem refusedCommandChangesNothing : Obligations.RefusedCommandChangesNothing := by
  intro s t p i n st results hx he slot hst
  obtain ⟨m, hi⟩ := ready_command? hx.1
  rcases exec_command_ends hi s t he with ⟨idle, -⟩ | ⟨-, completes⟩
  · rw [hx.1] at idle
    cases idle
  · cases completes with
    | refused st' h =>
      rw [complete_pending s p n st' [] hx.2] at slot ⊢
      rw [port_setPort, if_pos rfl] at slot
      cases slot
      exact ⟨rfl, rfl⟩
    | accepted u rs h => exact absurd (h.complete_slot rs slot) hst
    | settled u rs h =>
      rw [(State.Posts.settle s (u.complete p .ok rs) p).slot] at slot
      exact absurd (h.complete_slot rs slot) hst

end Sys2Proof.Machine
end

section
namespace Sys2Proof

/-! ### Fields read back from a frame (R179) -/

/-- A field that lies behind other bytes. -/
theorem field_skip {xs ys : List Byte} {k w : Nat} (h : xs.length ≤ k) :
    field (xs ++ ys) k w = field ys (k - xs.length) w := by
  simp [field, List.drop_append, List.drop_eq_nil_of_le h]

/-- The number of its width that stands first. -/
theorem field_first {w n : Nat} (rest : List Byte) (h : fitsBytes w n = true) :
    field (bytesOfNat w n ++ rest) 0 w = n := by
  rw [show bytesOfNat w n ++ rest = [] ++ bytesOfNat w n ++ rest from rfl,
    field_append [] (bytesOfNat w n) rest 0 w rfl (length_bytesOfNat w n), natOfBytes_fits w n h]

/-- The number of its width that stands alone. -/
theorem field_only {w n : Nat} (h : fitsBytes w n = true) : field (bytesOfNat w n) 0 w = n := by
  have first := field_first [] h
  rwa [List.append_nil] at first

theorem fitsBytes_iff (w n : Nat) : fitsBytes w n = true ↔ n < 256 ^ w := by simp [fitsBytes]

/-- A number read back as two's complement (R179). -/
theorem signedOfNat_emod {w : Nat} {i : Int} (h : fitsSigned w i = true) :
    signedOfNat w (i % (256 : Int) ^ w).toNat = i := by
  have range : -((256 : Int) ^ w / 2) ≤ i ∧ i < (256 : Int) ^ w / 2 := by simpa [fitsSigned] using h
  have cast : ((256 ^ w : Nat) : Int) = (256 : Int) ^ w := by simp
  have pos : 0 < (256 : Int) ^ w := Int.pow_pos (by decide)
  unfold signedOfNat
  generalize (256 : Int) ^ w = m at *
  by_cases neg : i < 0
  · have wrapped : i % m = i + m := by
      rw [← Int.add_emod_right, Int.emod_eq_of_lt] <;> omega
    rw [wrapped]
    split <;> omega
  · have same : i % m = i := Int.emod_eq_of_lt (by omega) (by omega)
    rw [same]
    split <;> omega

theorem fitsBytes_emod (w : Nat) (i : Int) : fitsBytes w (i % (256 : Int) ^ w).toNat = true := by
  have cast : ((256 ^ w : Nat) : Int) = (256 : Int) ^ w := by simp
  have pos : 0 < (256 : Int) ^ w := Int.pow_pos (by decide)
  have low := Int.emod_nonneg i (Int.ne_of_gt pos)
  have high := Int.emod_lt_of_pos i pos
  rw [fitsBytes_iff]
  omega

theorem signedField_first {w : Nat} {i : Int} (rest : List Byte) (h : fitsSigned w i = true) :
    signedField (bytesOfInt w i ++ rest) 0 w = i := by
  unfold signedField bytesOfInt
  rw [field_first rest (fitsBytes_emod w i), signedOfNat_emod h]

theorem signedField_skip {xs ys : List Byte} {k w : Nat} (h : xs.length ≤ k) :
    signedField (xs ++ ys) k w = signedField ys (k - xs.length) w := by
  unfold signedField
  rw [field_skip h]

theorem timeField_skip {xs ys : List Byte} {k : Nat} (h : xs.length ≤ k) :
    timeField (xs ++ ys) k = timeField ys (k - xs.length) := by
  have at2 : xs.length ≤ k + 2 := by omega
  have at3 : xs.length ≤ k + 3 := by omega
  unfold timeField
  rw [field_skip h, field_skip at2, field_skip at3, Nat.sub_add_comm h, Nat.sub_add_comm h]

theorem timeField_first {t : CellTime} (rest : List Byte) (h : t.fits = true) :
    timeField (bytesOfTime t ++ rest) 0 = t := by
  have fits : (fitsBytes 2 t.frame = true ∧ fitsBytes 1 t.slot = true) ∧ fitsBytes 2 t.offset = true := by
    simpa [CellTime.fits] using h
  obtain ⟨⟨frame, slot⟩, offset⟩ := fits
  simp [timeField, bytesOfTime, List.append_assoc, field_skip, field_first, frame, slot, offset]

theorem timeField_only {t : CellTime} (h : t.fits = true) : timeField (bytesOfTime t) 0 = t := by
  have first := timeField_first [] h
  rwa [List.append_nil] at first

theorem bytesOfNat_one (n : Nat) : bytesOfNat 1 n = [BitVec.ofNat 8 n] := by simp [bytesOfNat]

theorem toNat_ofNat_byte {n : Nat} (h : fitsBytes 1 n = true) : (BitVec.ofNat 8 n).toNat = n := by
  have low : n < 2 ^ 8 := (fitsBytes_iff 1 n).mp h
  rw [BitVec.toNat_ofNat, Nat.mod_eq_of_lt low]

/-- The pairs of a MEASURE REPORT (R32). -/
theorem pairsOf_flatMap (pairs : List (Nat × Int))
    (h : pairs.all (fun x => fitsBytes 1 x.1 && fitsSigned 2 x.2) = true) :
    pairsOf (pairs.flatMap (fun x => bytesOfNat 1 x.1 ++ bytesOfInt 2 x.2)) = pairs := by
  induction pairs with
  | nil => rfl
  | cons x rest ih =>
    simp only [List.all_cons, Bool.and_eq_true] at h
    obtain ⟨⟨index, level⟩, others⟩ := h
    have level' : signedOfNat 2 (natOfBytes (bytesOfInt 2 x.2)) = x.2 := by
      rw [bytesOfInt, natOfBytes_fits _ _ (fitsBytes_emod 2 x.2), signedOfNat_emod level]
    have read : ∀ more, pairsOf (bytesOfNat 1 x.1 ++ bytesOfInt 2 x.2 ++ more)
        = ((BitVec.ofNat 8 x.1).toNat, signedOfNat 2 (natOfBytes (bytesOfInt 2 x.2))) :: pairsOf more := fun more => by
      rw [bytesOfNat_one]
      rfl
    rw [List.flatMap_cons, read, toNat_ofNat_byte index, level', ih others]

/-- The steps of an EXCHANGE SUBMIT (section 7.2). -/
theorem stepsOf_flatMap (steps : List StepParams) (h : steps.all StepParams.fits = true) :
    stepsOf (steps.flatMap (fun x =>
      bytesOfNat 1 x.direction ++ bytesOfNat 3 x.offset ++ bytesOfNat 3 x.length ++ bytesOfNat 1 x.profile))
        = steps := by
  induction steps with
  | nil => rfl
  | cons x rest ih =>
    simp only [List.all_cons, StepParams.fits, Bool.and_eq_true] at h
    obtain ⟨⟨⟨⟨direction, offset⟩, length⟩, profile⟩, others⟩ := h
    have read : ∀ more, stepsOf (bytesOfNat 1 x.direction ++ bytesOfNat 3 x.offset ++ bytesOfNat 3 x.length
          ++ bytesOfNat 1 x.profile ++ more)
        = ⟨(BitVec.ofNat 8 x.direction).toNat, natOfBytes (bytesOfNat 3 x.offset), natOfBytes (bytesOfNat 3 x.length),
            (BitVec.ofNat 8 x.profile).toNat⟩ :: stepsOf more := fun more => by
      rw [bytesOfNat_one, bytesOfNat_one]
      rfl
    rw [List.flatMap_cons, read, toNat_ofNat_byte direction, natOfBytes_fits 3 _ offset, natOfBytes_fits 3 _ length,
      toNat_ofNat_byte profile, ih others]

/-! ### Parameter blocks read back -/

theorem timeCellOf_params (p : Port) (a : TimeCellParams) (h : a.fits = true) :
    timeCellOf (paramsOf (.timeCell p a)) = a := by
  simp only [TimeCellParams.fits, Bool.and_eq_true] at h
  obtain ⟨⟨⟨⟨⟨index, time⟩, drift⟩, advance⟩, source⟩, lt⟩ := h
  simp [timeCellOf, paramsOf, List.append_assoc, field_skip, field_first, field_only, timeField_skip, timeField_first,
    signedField_skip, signedField_first, index, time, drift, advance, source, lt]

theorem reserveOf_params (p : Port) (a : ReserveParams) (h : a.fits = true) :
    reserveOf (paramsOf (.reserve p a)) = a := by
  simp only [ReserveParams.fits, Bool.and_eq_true] at h
  obtain ⟨⟨⟨⟨⟨⟨⟨⟨⟨⟨kind, binding⟩, start⟩, length⟩, level⟩, period⟩, count⟩, mask⟩, slack⟩, resumable⟩, profile⟩ := h
  simp [reserveOf, paramsOf, List.append_assoc, field_skip, field_first, field_only, timeField_skip, timeField_first,
    kind, binding, start, length, level, period, count, mask, slack, resumable, profile]

theorem amendOf_params (p : Port) (a : AmendParams) (h : a.fits = true) : amendOf (paramsOf (.amend p a)) = a := by
  simp only [AmendParams.fits, Bool.and_eq_true] at h
  obtain ⟨⟨⟨⟨⟨⟨⟨handle, selection⟩, level⟩, slack⟩, profile⟩, mask⟩, remaining⟩, unlimited⟩ := h
  simp [amendOf, paramsOf, List.append_assoc, field_skip, field_first, field_only, handle, selection, level, slack,
    profile, mask, remaining, unlimited]

theorem callOf_params (p : Port) (a : CallParams) (h : a.fits = true) : callOf (paramsOf (.callStart p a)) = a := by
  simp only [CallParams.fits, Bool.and_eq_true] at h
  obtain ⟨⟨⟨⟨⟨⟨⟨⟨⟨rxStart, rxLength⟩, txDelay⟩, txLength⟩, period⟩, level⟩, allowance⟩, threshold⟩, rxProfile⟩,
    txProfile⟩ := h
  simp [callOf, paramsOf, List.append_assoc, field_skip, field_first, field_only, timeField_first, rxStart, rxLength,
    txDelay, txLength, period, level, allowance, threshold, rxProfile, txProfile]

theorem sleepOf_params (p : Port) (a : SleepParams) (h : a.fits = true) : sleepOf (paramsOf (.setSleep p a)) = a := by
  simp only [SleepParams.fits, Bool.and_eq_true] at h
  obtain ⟨⟨⟨⟨⟨⟨⟨lead, warmUp⟩, spanMin⟩, spanMax⟩, uncertainty⟩, exponent⟩, shift⟩, autoInterval⟩ := h
  simp [sleepOf, paramsOf, List.append_assoc, field_skip, field_first, field_only, lead, warmUp, spanMin, spanMax,
    uncertainty, exponent, shift, autoInterval]

theorem exchangeOf_params (p : Port) (a : ExchangeParams) (h : a.fits = true) :
    exchangeOf (paramsOf (.exchangeSubmit p a)) = a := by
  simp only [ExchangeParams.fits, Bool.and_eq_true, decide_eq_true_eq] at h
  obtain ⟨⟨⟨⟨⟨⟨earliest, latest⟩, level⟩, -⟩, -⟩, atMost⟩, steps⟩ := h
  have count : fitsBytes 1 a.count = true := (fitsBytes_iff 1 a.count).mpr (by omega)
  have behind : (paramsOf (.exchangeSubmit p a)).drop 12 = a.steps.flatMap (fun x =>
      bytesOfNat 1 x.direction ++ bytesOfNat 3 x.offset ++ bytesOfNat 3 x.length ++ bytesOfNat 1 x.profile) :=
    List.drop_left' (by simp)
  rw [exchangeOf, behind, stepsOf_flatMap a.steps steps]
  simp [paramsOf, List.append_assoc, field_skip, field_first, timeField_skip, timeField_first, earliest, latest, level,
    count]

/-! ### Every command is read back from its frame -/

/-- The parameters of a well-formed command spell its operands (R179, the command index). A command of numbers and
cell times alone is read field by field in the last case. -/
theorem commandOf_paramsOf {i : Instr} {p : Port} {n : Nat} (wf : i.wellFormed = true)
    (hi : i.command? = some (p, n)) : commandOf p n (paramsOf i) = some i := by
  cases i with
  | timeCell _ a =>
    cases hi
    exact congrArg (fun x => some (Instr.timeCell p x)) (timeCellOf_params p a (Bool.and_eq_true_iff.mp wf).2)
  | measureReport _ pairs =>
    cases hi
    exact congrArg (fun x => some (Instr.measureReport p x)) (pairsOf_flatMap pairs (Bool.and_eq_true_iff.mp wf).2)
  | reserve _ a =>
    cases hi
    exact congrArg (fun x => some (Instr.reserve p x)) (reserveOf_params p a (Bool.and_eq_true_iff.mp wf).2)
  | amend _ a =>
    cases hi
    exact congrArg (fun x => some (Instr.amend p x)) (amendOf_params p a (Bool.and_eq_true_iff.mp wf).2)
  | callStart _ a =>
    cases hi
    exact congrArg (fun x => some (Instr.callStart p x)) (callOf_params p a (Bool.and_eq_true_iff.mp wf).2)
  | exchangeSubmit _ a =>
    cases hi
    exact congrArg (fun x => some (Instr.exchangeSubmit p x)) (exchangeOf_params p a (Bool.and_eq_true_iff.mp wf).2)
  | setSleep _ a =>
    cases hi
    exact congrArg (fun x => some (Instr.setSleep p x)) (sleepOf_params p a (Bool.and_eq_true_iff.mp wf).2)
  | readCall _ which =>
    cases hi
    cases which <;> simp_all [Instr.wellFormed, ownerByteFits, commandOf, paramsOf, field_only]
  | readHandover _ which =>
    cases hi
    cases which <;> simp_all [Instr.wellFormed, ownerByteFits, commandOf, paramsOf, field_only]
  | _ =>
    cases hi <;>
      simp_all [Instr.wellFormed, commandOf, paramsOf, List.append_assoc, field_skip, field_first, field_only,
        timeField_skip, timeField_only]

/-- What the frame of a well-formed command looks like to PI, command by command (R177, R179). -/
theorem frame_statement (i : Instr) : Laws.Frame.Statement i := by
  cases i with
  | readTime p => exact Laws.Frame.readTime p
  | releaseCapture p => exact Laws.Frame.releaseCapture p
  | addCell p c d => exact Laws.Frame.addCell p c d
  | removeCell p i => exact Laws.Frame.removeCell p i
  | readCell p i => exact Laws.Frame.readCell p i
  | setServing p i => exact Laws.Frame.setServing p i
  | clearServing p => exact Laws.Frame.clearServing p
  | timeCell p a => exact Laws.Frame.timeCell p a
  | measureReport p l => exact Laws.Frame.measureReport p l
  | setTrigger p a b => exact Laws.Frame.setTrigger p a b
  | reserve p a => exact Laws.Frame.reserve p a
  | amend p a => exact Laws.Frame.amend p a
  | cancel p i => exact Laws.Frame.cancel p i
  | readReservation p i => exact Laws.Frame.readReservation p i
  | setPolicy p a b c g => exact Laws.Frame.setPolicy p a b c g
  | readPolicy p => exact Laws.Frame.readPolicy p
  | readTimeline p k => exact Laws.Frame.readTimeline p k
  | setProfile p i a b c d => exact Laws.Frame.setProfile p i a b c d
  | endWindow p h => exact Laws.Frame.endWindow p h
  | callStart p a => exact Laws.Frame.callStart p a
  | callEnd p => exact Laws.Frame.callEnd p
  | readCall p w => exact Laws.Frame.readCall p w
  | exchangeSubmit p a => exact Laws.Frame.exchangeSubmit p a
  | exchangeCancel p i => exact Laws.Frame.exchangeCancel p i
  | readExchange p i => exact Laws.Frame.readExchange p i
  | handover p i t => exact Laws.Frame.handover p i t
  | handoverCancel p => exact Laws.Frame.handoverCancel p
  | handoverRevert p t => exact Laws.Frame.handoverRevert p t
  | readHandover p w => exact Laws.Frame.readHandover p w
  | vote p v => exact Laws.Frame.vote p v
  | setSleep p a => exact Laws.Frame.setSleep p a
  | readSleep p => exact Laws.Frame.readSleep p
  | calibrate p => exact Laws.Frame.calibrate p
  | fetchEvents p => exact Laws.Frame.fetchEvents p
  | enablePort p w => exact Laws.Frame.enablePort p w
  | disablePort p w => exact Laws.Frame.disablePort p w
  | resetPort p => exact Laws.Frame.resetPort p
  | resetChip p => exact Laws.Frame.resetChip p
  | _ => exact Laws.Frame.of_none _ rfl

/-- PI reads a well-formed command whole from its frame. -/
theorem parseFrame_paramsOf {i : Instr} {p : Port} {n : Nat} (wf : i.wellFormed = true)
    (hi : i.command? = some (p, n)) : parseFrame p n (paramsOf i) = .command i := by
  obtain ⟨-, number, listed, length, -⟩ := frame_statement i p n wf hi
  simp [parseFrame, Nat.not_lt.mpr number, listed, length, commandOf_paramsOf wf hi]

/-- Settles O2: the number, the port and the length pass PI's checks, and every field is read back from its place. -/
theorem frameOfCommandReadsBack : Obligations.FrameOfCommandReadsBack := fun _ _ _ wf hi => parseFrame_paramsOf wf hi

end Sys2Proof
end

section
namespace Sys2Proof

/-! ### The bytes of a command's frame -/

theorem frameOf_eq {i : Instr} {p : Port} {n : Nat} (hi : i.command? = some (p, n)) :
    frameOf i = BitVec.ofNat 8 n :: BitVec.ofNat 8 (paramsOf i).length :: paramsOf i := by
  simp [frameOf, hi, bytesOfNat_one]

end Sys2Proof

namespace Sys2Proof.Machine

/-! ### What PI makes of the bits received (R177) -/

/-- A header that its bytes do not follow is malformed; number 0 is the poll or nothing known (notes/assumptions/46). -/
theorem judge_bytes (number len : Byte) (params : List Byte) :
    judge (bitsOfBytes (number :: len :: params))
      = if len.toNat ≤ 96 ∧ params.length = len.toNat then
          if number = 0 then (if len = 0 then .poll else .malformed) else .frame number.toNat params
        else .malformed := by
  have length := length_bitsOfBytes (number :: len :: params)
  have bytes := bytesOfBits_bitsOfBytes (number :: len :: params)
  unfold judge
  cases hb : bitsOfBytes (number :: len :: params) with
  | nil => simp [hb] at length
  | cons b rest =>
    rw [hb] at bytes length
    have whole : (b :: rest).length % 8 = 0 := by rw [length]; exact Nat.mul_mod_right 8 _
    have follow : (b :: rest).length = 8 * (2 + len.toNat) ↔ params.length = len.toNat := by
      rw [length, List.length_cons, List.length_cons]
      omega
    simp only [bytes, whole, beq_self_eq_true, Bool.true_and, Bool.and_eq_true, decide_eq_true_eq, beq_iff_eq, follow]

theorem judge_frame {number len : Byte} {params : List Byte} (known : number ≠ 0) (length : params.length = len.toNat)
    (short : len.toNat ≤ 96) : judge (bitsOfBytes (number :: len :: params)) = .frame number.toNat params := by
  rw [judge_bytes, if_pos ⟨short, length⟩, if_neg known]

theorem judge_misheaded {number len : Byte} {params : List Byte}
    (h : 96 < len.toNat ∨ params.length ≠ len.toNat ∨ (number = 0 ∧ len ≠ 0)) :
    judge (bitsOfBytes (number :: len :: params)) = .malformed := by
  rw [judge_bytes]
  split
  · rename_i header
    rcases h with long | other | ⟨zero, some⟩
    · omega
    · exact absurd header.2 other
    · rw [if_pos zero, if_neg some]
  · rfl

/-- Bits that are no whole bytes, or fewer than two bytes, are malformed. -/
theorem judge_partial {bits : List Bool} (some : bits ≠ []) (h : bits.length % 8 ≠ 0 ∨ bits.length < 16) :
    judge bits = .malformed := by
  cases bits with
  | nil => exact absurd rfl some
  | cons b rest =>
    simp only [judge]
    split
    · rename_i number len params _
      have refused : ((b :: rest).length % 8 == 0 && decide (len.toNat ≤ 96)
          && (b :: rest).length == 8 * (2 + len.toNat)) = false := by
        simp only [Bool.and_eq_false_iff, beq_eq_false_iff_ne, decide_eq_false_iff_not]
        omega
      rw [refused]
      rfl
    · rfl
    · rfl

theorem judge_frameOf {i : Instr} {p : Port} {n : Nat} (wf : i.wellFormed = true) (hi : i.command? = some (p, n)) :
    judge (bitsOfBytes (frameOf i)) = .frame n (paramsOf i) := by
  obtain ⟨low, high, -, -, short⟩ := frame_statement i p n wf hi
  have number : (BitVec.ofNat 8 n).toNat = n := by
    rw [BitVec.toNat_ofNat]
    omega
  have len : (BitVec.ofNat 8 (paramsOf i).length).toNat = (paramsOf i).length := by
    rw [BitVec.toNat_ofNat]
    omega
  have known : BitVec.ofNat 8 n ≠ 0 := fun zero => by
    rw [zero] at number
    simp at number
    omega
  rw [frameOf_eq hi, judge_frame known len.symm (len.symm ▸ short), number]

/-! ### The end of a transaction (R176, R177) -/

/-- A port at the end of a transaction: the flags its copy showed are cleared, then CS_N is high (R176). -/
def PortState.closed (x : PortState) (tx : Transaction) (bits : Nat) : PortState :=
  { x.clearShown tx bits with transaction := none, overflowAnew := false }

/-- Clearing shown flags touches the flags alone. -/
theorem clearShown_flags (x : PortState) (tx : Transaction) (bits : Nat) :
    x.clearShown tx bits = { x with flags := (x.clearShown tx bits).flags } := by
  unfold PortState.clearShown
  split <;> rfl

theorem closed_eq (x : PortState) (tx : Transaction) (bits : Nat) :
    x.closed tx bits
      = { x with flags := (x.clearShown tx bits).flags, transaction := none, overflowAnew := false } := by
  unfold PortState.closed
  rw [clearShown_flags]

/-- A copy of which fewer than four bytes have gone out clears nothing. -/
theorem clearShown_short (x : PortState) (tx : Transaction) {bits : Nat} (h : bits < 32) :
    x.clearShown tx bits = x := by
  simp [PortState.clearShown, Nat.not_le.mpr h]

section
variable {s : State} {p : Port} {tx : Transaction} {bits : List Bool}

theorem exec_csNRise (ht : (s.port p).transaction = some tx) :
    exec (.csNRise p bits) s = .next (State.settle s (s.closeTransaction p tx bits)) := by
  simp [exec, execCsNRise, ht]

/-- A transaction that is not judged only ends (R186, R189). -/
theorem closeTransaction_unjudged (h : (tx.judged && (s.port p).enabled && s.resetN) = false) :
    s.closeTransaction p tx bits = s.setPort p { s.port p with transaction := none, overflowAnew := false } := by
  simp only [State.closeTransaction, h, Bool.false_eq_true, if_false]

variable (judged : (tx.judged && (s.port p).enabled && s.resetN) = true)
include judged

theorem closeTransaction_nothing (h : judge bits = .nothing) :
    s.closeTransaction p tx bits = s.setPort p { s.port p with transaction := none, overflowAnew := false } := by
  simp only [State.closeTransaction, judged, h, if_true]

theorem closeTransaction_poll (h : judge bits = .poll) :
    s.closeTransaction p tx bits = s.setPort p ((s.port p).closed tx bits.length) := by
  simp only [State.closeTransaction, judged, h, if_true]
  rfl

theorem closeTransaction_malformed (h : judge bits = .malformed) :
    s.closeTransaction p tx bits
      = s.setPort p { (s.port p).closed tx bits.length with
          flags := { ((s.port p).closed tx bits.length).flags with frameError := true } } := by
  simp only [State.closeTransaction, judged, h, if_true]
  rfl

theorem closeTransaction_frame {number : Nat} {params : List Byte} (h : judge bits = .frame number params) :
    s.closeTransaction p tx bits
      = (s.setPort p ((s.port p).closed tx bits.length)).takeFrame p number params := by
  simp only [State.closeTransaction, judged, h, if_true]
  rfl

end

/-! ### A frame that PI takes (R157, R163, R179) -/

/-- A port that holds a command's frame. -/
def PortState.holding (x : PortState) (number : Nat) (params : List Byte) (arrival : SleepState) : PortState :=
  { x with slot := .pending number, buffer := some ⟨number, params, arrival⟩ }

section
variable {s : State} {p : Port} {number : Nat} {params : List Byte}

/-- A frame that meets a PENDING slot collides (R179, R181). -/
theorem takeFrame_collides {m : Nat} (h : (s.port p).slot = .pending m) :
    s.takeFrame p number params
      = s.setPort p { s.port p with flags := { (s.port p).flags with collision := true } } := by
  simp only [State.takeFrame, h]

theorem takeFrame_taken (h : ∀ m, (s.port p).slot ≠ .pending m) :
    s.takeFrame p number params
      = if s.sc.state = .awake ∨ s.sc.state = .entering then
          ((s.setPort p ((s.port p).holding number params s.sc.state)).wakeFor p).checkFrame p
        else (s.setPort p ((s.port p).holding number params s.sc.state)).wakeFor p := by
  unfold State.takeFrame
  dsimp only
  split
  · rename_i m slot
    exact absurd slot (h m)
  all_goals simp [PortState.holding]

/-- R156, R157: a frame that finds the part AWAKE or ENTERING leaves it AWAKE, with the span-short mark clear. -/
theorem wakeFor_counting (h : s.sc.state = .awake ∨ s.sc.state = .entering) :
    s.wakeFor p = { s with sc := { s.sc with state := .awake, spanShort := false } } := by
  rcases h with h | h
  · simp only [State.wakeFor, h]
    rw [← h]
    rfl
  · simp only [State.wakeFor, h]

/-- R163: a frame that finds the part ASLEEP sets the early wake count. -/
theorem wakeFor_asleep {hand : SleepHand} (h : s.sc.state = .asleep) (hh : s.sc.hand = some hand) :
    s.wakeFor p
      = { s with sc := { s.sc with
          state := .waking, refEn := true, early := some (min (s.sc.counter + hand.warmUp) hand.span, p) } } := by
  simp only [State.wakeFor, h, hh]

theorem wakeFor_waking (h : s.sc.state = .waking) : s.wakeFor p = s := by
  simp only [State.wakeFor, h]

theorem checkFrame_passed {f : HeldFrame} {i : Instr} (hb : (s.port p).buffer = some f)
    (hf : parseFrame p f.number f.params = .command i) : s.checkFrame p = s := by
  simp only [State.checkFrame, hb, hf]

/-- R179: a frame that PI refuses is answered at once. -/
theorem checkFrame_refused {f : HeldFrame} {st : Status} {n : Nat} (hb : (s.port p).buffer = some f)
    (hf : parseFrame p f.number f.params = .refused st) (slot : (s.port p).slot = .pending n) :
    s.checkFrame p = s.setPort p ((s.port p).answered n st []) := by
  simp only [State.checkFrame, hb, hf, complete_pending s p n st [] slot]

end

/-! ### The end of the step (R156, R157) -/

/-- A port with a PENDING slot stands against sleep (R156, R180). -/
theorem entryCondition_pending {s : State} {p : Port} {n : Nat} (h : (s.port p).slot = .pending n) :
    s.entryCondition = false := by
  have stands : (s.port p).consents = false := by simp [PortState.consents, h]
  cases p <;> simp_all [State.entryCondition, State.port, PerPort.get]

/-- A step that leaves the records: what it writes stays, WC is replanned, and SC settled. -/
theorem settle_records {s u : State} (rt : u.rt = s.rt) :
    (State.settle s u).port = u.port ∧ u.sameExcept (State.settle s u) [.wc, .sc]
      ∧ (State.settle s u).wc = { u.wc with next := (State.settle s u).wc.next, load := (State.settle s u).wc.load }
      ∧ u.sleepSettled (State.settle s u) := by
  obtain ⟨same, next, -, sleep⟩ := settle_quiet s u (quiet_of_rt rt)
  obtain ⟨-, -, -, -, -, -, -, -, ports, -⟩ := id same
  exact ⟨funext fun p => ports p (by simp), same, next, sleep⟩

/-- SC stays as a step leaves it, where that is without the mark and no entry. -/
theorem settle_sc_clear {s u : State} (rt : u.rt = s.rt) (mark : u.sc.spanShort = false)
    (state : u.sc.state ≠ .entering) : (State.settle s u).sc = u.sc := by
  obtain ⟨-, -, -, sc, falls, moves⟩ := settle_records rt
  have unmarked : (State.settle s u).sc.spanShort = u.sc.spanShort := by
    rw [mark]
    cases h : (State.settle s u).sc.spanShort with
    | false => rfl
    | true =>
      have := falls h
      rw [mark] at this
      cases this
  rcases moves with same | ⟨entering, -⟩
  · rw [sc, unmarked, same]
  · exact absurd entering state

/-- The span-short mark is cleared while a command executes (R156). -/
theorem settle_sc_pending {s u : State} {p : Port} {n : Nat} (rt : u.rt = s.rt) (slot : (u.port p).slot = .pending n)
    (state : u.sc.state ≠ .entering) : (State.settle s u).sc = { u.sc with spanShort := false } := by
  obtain ⟨-, -, -, sc, -, moves⟩ := settle_records rt
  have quiet := settleWindows_quiet s u (quiet_of_rt rt)
  have unmarked : (State.settle s u).sc.spanShort = false := by
    have stands : u.refreshWindows.entryCondition = false :=
      entryCondition_pending (s := u.refreshWindows) (p := p) slot
    simp [State.settle, quiet, State.settleSleep, stands]
  rcases moves with same | ⟨entering, -⟩
  · rw [sc, unmarked, same]
  · exact absurd entering state

end Sys2Proof.Machine
end

section
namespace Sys2Proof.Machine

/-! ### The queue of commands -/

/-- Settles O1, which is how a step is defined on a queue that is not empty. -/
theorem stepRunsTheFrontCommand : Obligations.StepRunsTheFrontCommand := step_cons

/-! ### The fall of CS_N (R176, R178, R189) -/

theorem exec_csNFall {s : State} {p : Port} (h : (s.port p).transaction = none) :
    exec (.csNFall p) s = .next (s.openTransaction p) := by
  simp [exec, execCsNFall, h]

/-- R176: the copy's bits, then zeros; zeros throughout while RESET_N is low (R189). -/
theorem sdo_eq {s : State} {p : Port} {tx : Transaction} (h : (s.port p).transaction = some tx) (i : Nat) :
    s.sdo p i = some (s.resetN && ((bitsOfBytes tx.copy)[i]?).getD false) := by
  simp [State.sdo, Transaction.sdo, h]

/-- A slot that holds an answer (R178). -/
def Slot.isDone : Slot → Bool
  | .done _ _ _ => true
  | .empty => false
  | .pending _ => false
  | .disabled => false

/-- The transaction that the fall of CS_N opens: what it copies, and whether it will be judged (R176, R189). -/
def State.opening (s : State) (p : Port) : Transaction where
  judged := (s.port p).enabled && s.resetN
  copy := if s.resetN then (s.port p).response else []
  shown := (s.port p).flags
  copyDone := (s.port p).slot.isDone && s.resetN

theorem openTransaction_eq (s : State) (p : Port) :
    s.openTransaction p = s.setPort p { s.port p with transaction := some (s.opening p), overflowAnew := false } := rfl

/-- Settles O4: SDO by the transaction, the copy by the slot of the port. -/
theorem csNFallCopiesTheResponse : Obligations.CsNFallCopiesTheResponse := by
  refine ⟨fun s p i => ⟨fun none => by simp [State.sdo, none], fun tx ht => ⟨fun low => ?_, fun high => ?_⟩⟩,
    fun s p none => ⟨_, s.opening p, exec_csNFall none, ?_, ?_, rfl, rfl, fun low => ?_, fun high => ?_⟩⟩
  · rw [sdo_eq ht, low, Bool.false_and]
  · rw [sdo_eq ht, high, Bool.true_and]
  · rw [openTransaction_eq]
    exact sameExcept_setPort p _ (sameExcept_refl s [])
  · rw [openTransaction_eq, port_setPort, if_pos rfl]
  · simp [State.opening, low]
  · simp only [State.opening, high, Bool.and_true, if_true, PortState.response]
    cases (s.port p).slot <;> exact ⟨rfl, rfl⟩

/-! ### The rise of CS_N on a frame that is not taken (R176, R177, R179, R181) -/

/-- The flags that stay when a transaction ends (R176; notes/assumptions/13). -/
theorem closed_kept (x : PortState) (tx : Transaction) (bits : Nat) :
    x.closed tx bits = { x with
      flags :=
        if tx.copyDone = true ∧ 32 ≤ bits then
          ⟨x.flags.collision && !tx.shown.collision, x.flags.frameError && !tx.shown.frameError,
            x.flags.overflow && (!tx.shown.overflow || x.overflowAnew)⟩
        else x.flags
      transaction := none
      overflowAnew := false } := by
  rw [closed_eq]
  by_cases shown : tx.copyDone = true ∧ 32 ≤ bits <;> simp [PortState.clearShown, shown]

section
variable {s : State} {p : Port} {tx : Transaction} {bits : List Bool}

/-- A transaction that ends in a rewriting of its port changes nothing else but for replanning. -/
theorem csNRise_ends {y : PortState} (ht : (s.port p).transaction = some tx)
    (hc : s.closeTransaction p tx bits = s.setPort p y) :
    ∃ t, exec (.csNRise p bits) s = .next t ∧ t.port p = y ∧ s.replannedExcept t [.port p] := by
  have quiet := quiet_of_rt (s := s) (u := s.setPort p y) rfl
  refine ⟨State.settle s (s.setPort p y), ?_, ?_, (State.Replans.setPort s p y).settled quiet⟩
  · rw [exec_csNRise ht, hc]
  · rw [(settle_records (s := s) (u := s.setPort p y) rfl).1, port_setPort, if_pos rfl]

end

/-- Settles O5, by what PI makes of the bits. -/
theorem csNRiseJudgesEveryOtherFrame : Obligations.CsNRiseJudgesEveryOtherFrame := by
  intro s p tx bits ht hj he hr x kept ends
  have judged : (tx.judged && (s.port p).enabled && s.resetN) = true := by rw [hj, he, hr]; rfl
  have closed : (s.port p).closed tx bits.length = { x with flags := kept } := closed_kept _ _ _
  have malformed : judge bits = .malformed → ends { x with flags := { kept with frameError := true } } := fun h =>
    csNRise_ends ht (by rw [closeTransaction_malformed judged h, closed])
  refine ⟨?_, ?_, fun some partial' => malformed (judge_partial some partial'), ?_, ?_⟩
  · rintro rfl
    exact csNRise_ends ht (closeTransaction_nothing judged rfl)
  · rintro rfl
    refine csNRise_ends ht ((closeTransaction_poll judged (by rw [judge_bytes]; rfl)).trans ?_)
    rw [PortState.closed, clearShown_short _ _ (by simp)]
  · rintro number len params rfl misheaded
    exact malformed (judge_misheaded misheaded)
  · rintro number len params m rfl known length short pending
    refine csNRise_ends ht ?_
    rw [closeTransaction_frame judged (judge_frame known length short), closed,
      takeFrame_collides (m := m) (by rw [port_setPort, if_pos rfl]; exact pending), setPort_setPort, port_setPort,
      if_pos rfl]

/-! ### The rise of CS_N on a frame that is taken (R157, R163, R176, R179) -/

/-- A port and SC written. -/
def State.withPortSc (s : State) (p : Port) (x : PortState) (sc : SleepController) : State :=
  { s.setPort p x with sc := sc }

theorem port_withPortSc (s : State) (p : Port) (x : PortState) (sc : SleepController) :
    (s.withPortSc p x sc).port p = x := (port_setPort s p p x).trans (if_pos rfl)

theorem withPortSc_sameExcept (s : State) (p : Port) (x : PortState) (sc : SleepController) :
    s.sameExcept (s.withPortSc p x sc) [.sc, .port p] :=
  sameExcept_setPort (parts := [.sc]) p x (u := { s with sc := sc })
    ⟨fun _ => rfl, fun _ => rfl, fun _ => rfl, fun _ => rfl, fun _ => rfl, fun _ => rfl, fun _ => rfl, by simp,
      fun _ _ => rfl, fun _ => rfl, fun _ => rfl, fun _ => rfl⟩

/-- A step that writes a port and SC: the port stands as written, WC is replanned, and nothing else changes but SC. -/
theorem settle_withPortSc (s : State) (p : Port) (x : PortState) (sc : SleepController) :
    let t := State.settle s (s.withPortSc p x sc)
    t.port p = x ∧ t.wc = { s.wc with next := t.wc.next, load := t.wc.load } ∧ s.sameExcept t [.wc, .sc, .port p] := by
  obtain ⟨ports, same, wc, -⟩ := settle_records (s := s) (u := s.withPortSc p x sc) rfl
  refine ⟨?_, wc, sameExcept_trans (sameExcept_mono (by simp) (withPortSc_sameExcept s p x sc))
    (sameExcept_mono (by simp) same)⟩
  rw [ports, port_withPortSc]

section
variable {s : State} {p : Port} {tx : Transaction} {bits : List Bool} {number : Nat} {params : List Byte}

/-- The port that a taken frame leaves until PI has checked it. -/
def State.heldBy (s : State) (p : Port) (tx : Transaction) (bits number : Nat) (params : List Byte) : PortState :=
  ((s.port p).closed tx bits).holding number params s.sc.state

theorem closeTransaction_taken (judged : (tx.judged && (s.port p).enabled && s.resetN) = true)
    (hf : judge bits = .frame number params) (free : ∀ m, (s.port p).slot ≠ .pending m) :
    s.closeTransaction p tx bits
      = if s.sc.state = .awake ∨ s.sc.state = .entering then
          ((s.setPort p (s.heldBy p tx bits.length number params)).wakeFor p).checkFrame p
        else (s.setPort p (s.heldBy p tx bits.length number params)).wakeFor p := by
  have slot : ((s.setPort p ((s.port p).closed tx bits.length)).port p).slot = (s.port p).slot := by
    rw [port_setPort, if_pos rfl, closed_eq]
  rw [closeTransaction_frame judged hf, takeFrame_taken fun m => slot ▸ free m, port_setPort, if_pos rfl,
    setPort_setPort]
  rfl

/-- A frame that finds the part AWAKE or ENTERING leaves it AWAKE and is checked (R156, R157, R179). -/
theorem closeTransaction_counting (judged : (tx.judged && (s.port p).enabled && s.resetN) = true)
    (hf : judge bits = .frame number params) (free : ∀ m, (s.port p).slot ≠ .pending m)
    (counting : s.sc.state = .awake ∨ s.sc.state = .entering) :
    s.closeTransaction p tx bits
      = (s.withPortSc p (s.heldBy p tx bits.length number params)
          { s.sc with state := .awake, spanShort := false }).checkFrame p := by
  rw [closeTransaction_taken judged hf free, if_pos counting, wakeFor_counting (s := s.setPort p _) counting]
  rfl

/-- A frame that finds the part in a sleep waits for the wake (R163, R179). -/
theorem closeTransaction_sleeping (judged : (tx.judged && (s.port p).enabled && s.resetN) = true)
    (hf : judge bits = .frame number params) (free : ∀ m, (s.port p).slot ≠ .pending m)
    (sleeping : ¬(s.sc.state = .awake ∨ s.sc.state = .entering)) :
    s.closeTransaction p tx bits = (s.setPort p (s.heldBy p tx bits.length number params)).wakeFor p := by
  rw [closeTransaction_taken judged hf free, if_neg sleeping]

end

/-- Settles O3, by the state in which the frame finds SC. -/
theorem commandFrameIsTaken : Obligations.CommandFrameIsTaken := by
  intro s p i n tx wf hi ht hj he hr free bits taken
  have judged : (tx.judged && (s.port p).enabled && s.resetN) = true := by rw [hj, he, hr]; rfl
  have frame : judge bits = .frame n (paramsOf i) := judge_frameOf wf hi
  have parsed : parseFrame p n (paramsOf i) = .command i := parseFrame_paramsOf wf hi
  let held := s.heldBy p tx bits.length n (paramsOf i)
  have takes : ∀ sc, taken (State.settle s (s.withPortSc p held sc)) := fun sc => settle_withPortSc s p held sc
  have row : ∀ sc, s.closeTransaction p tx bits = s.withPortSc p held sc →
      exec (.csNRise p bits) s = .next (State.settle s (s.withPortSc p held sc)) := fun sc hc => by
    rw [exec_csNRise ht, hc]
  have clears : ∀ sc : SleepController, sc.state ≠ .entering →
      (State.settle s (s.withPortSc p held sc)).sc = { sc with spanShort := false } := fun sc state =>
    settle_sc_pending (u := s.withPortSc p held sc) (p := p) (n := n) rfl (by rw [port_withPortSc]; rfl) state
  refine ⟨fun counting => ?_, fun hand asleep hh => ?_, fun waking => ?_⟩
  · have sc := clears { s.sc with state := .awake, spanShort := false } (by simp)
    refine ⟨_, row _ ?_, takes _, ⟨(ready_iff _ p i).mpr ⟨by rw [sc], ⟨n, ?_⟩, ?_⟩, ?_⟩, sc⟩
    · rw [closeTransaction_counting judged frame free counting]
      exact checkFrame_passed (by rw [port_withPortSc]; rfl) parsed
    · rw [(takes _).1]
    · exact ⟨_, by rw [(takes _).1], parsed⟩
    · rw [(takes _).1]
  · refine ⟨_, row _ ?_, takes _, clears { s.sc with
      state := .waking, refEn := true, early := some (min (s.sc.counter + hand.warmUp) hand.span, p) } (by simp)⟩
    rw [closeTransaction_sleeping judged frame free (by simp [asleep])]
    exact wakeFor_asleep asleep hh
  · refine ⟨_, row s.sc ?_, takes _, clears s.sc (by simp [waking])⟩
    rw [closeTransaction_sleeping judged frame free (by simp [waking])]
    exact wakeFor_waking waking

/-- R179: PI's checks stand in the order BAD_COMMAND, WRONG_PORT, BAD_PARAM. -/
theorem parseFrame_refused {p : Port} {m : Nat} {ps : List Byte} {st : Status}
    (h : (st = .badCommand ∧ 38 < m) ∨ (st = .wrongPort ∧ m ≤ 38 ∧ listedOn m p = false)
      ∨ (st = .badParam ∧ m ≤ 38 ∧ listedOn m p = true ∧ lengthAccepted m p ps = false)) :
    parseFrame p m ps = .refused st := by
  rcases h with ⟨rfl, unknown⟩ | ⟨rfl, known, unlisted⟩ | ⟨rfl, known, listed, length⟩
  · simp [parseFrame, unknown]
  · simp [parseFrame, Nat.not_lt.mpr known, unlisted]
  · simp [parseFrame, Nat.not_lt.mpr known, listed, length]

/-- Settles O6: the frame is taken, refused by PI's checks and answered at once. -/
theorem framesArePassedOrRefusedInOrder : Obligations.FramesArePassedOrRefusedInOrder := by
  intro s p tx number len params st ht hj he hr free counting known length short refused
  have judged : (tx.judged && (s.port p).enabled && s.resetN) = true := by rw [hj, he, hr]; rfl
  have frame := judge_frame known length short
  generalize bitsOfBytes (number :: len :: params) = bits at frame ⊢
  let held := s.heldBy p tx bits.length number.toNat params
  let sc := { s.sc with state := .awake, spanShort := false }
  have answers : s.closeTransaction p tx bits = s.withPortSc p (held.answered number.toNat st []) sc := by
    rw [closeTransaction_counting judged frame free counting,
      checkFrame_refused (by rw [port_withPortSc]; rfl) (parseFrame_refused refused) (by rw [port_withPortSc]; rfl),
      port_withPortSc]
    exact congrArg (fun u : State => { u with sc := sc }) (setPort_setPort s p held _)
  obtain ⟨port, wc, same⟩ := settle_withPortSc s p (held.answered number.toNat st []) sc
  exact ⟨_, by rw [exec_csNRise ht, answers], port,
    settle_sc_clear (u := s.withPortSc p (held.answered number.toNat st []) sc) rfl rfl SleepState.noConfusion, wc,
    same⟩

end Sys2Proof.Machine
end

section
namespace Sys2Proof.Machine

/-! ### FETCH EVENTS (R185) -/

/-- Settles O12: the records taken and the rest are the two parts of the queue at six. -/
theorem fetchEventsTakesTheOldest : Obligations.FetchEventsTakesTheOldest := by
  intro s p n hx
  have row := command_executes (t := s.setPort p { s.port p with queue := (s.port p).queue.drop 6, overflowCount := 0 })
    (body := fun t => accept (t.setPort p { t.port p with queue := (t.port p).queue.drop 6, overflowCount := 0 })
      (t.port p).fetchResult) hx rfl (by rw [port_setPort, if_pos rfl]; exact hx.2)
  have left : (s.port p).queue.length - (s.port p).fetched.length = ((s.port p).queue.drop 6).length := by
    simp only [PortState.fetched, List.length_take, List.length_drop]
    omega
  refine ⟨_, (s.port p).fetched, (s.port p).queue.drop 6, (exec_fetchEvents p s).trans row,
    (List.take_append_drop 6 _).symm, List.length_take, ?_, ?_⟩
  · rw [← left]
    simp [PortState.answered, PortState.fetchResult]
  · rw [setPort_setPort]
    exact sameExcept_setPort p _ (sameExcept_refl s [])

/-! ### ENABLE PORT (R186) -/

/-- Settles O11, by the port that the byte names and whether it is enabled. -/
theorem enablePortEnablesOnce : Obligations.EnablePortEnablesOnce := by
  intro s n which hx
  cases named : ownerOfByte which with
  | none =>
    refine ⟨_, (exec_enablePort _ _ s).trans (command_refused hx ?_), rfl⟩
    simp only [State.enablePort, named]
  | some o =>
    have apart : Port.policy ≠ o.port := (Owner.port_ne_policy o).symm
    cases enabled : (s.port o.port).enabled with
    | true =>
      refine ⟨_, (exec_enablePort _ _ s).trans (command_answers (st := .ok) (rs := [1]) hx ?_), ?_⟩
      · simp only [State.enablePort, named, enabled, if_true]
        rfl
      · simp only [enabled, if_true]
    | false =>
      have same : (s.setPort o.port (s.port o.port).enable).port .policy = s.port .policy := by
        rw [port_setPort, if_neg apart]
      have row := command_executes (t := s.setPort o.port (s.port o.port).enable) (st := .ok) (rs := [0])
        (body := fun t => t.enablePort which) hx
        (by simp only [State.enablePort, named, enabled, Bool.false_eq_true, if_false]; rfl) (same ▸ hx.2)
      refine ⟨_, (exec_enablePort _ _ s).trans row, ?_⟩
      simp only [enabled, Bool.false_eq_true, if_false, same]
      rfl

/-! ### The port reset of an owner (R186 to R188 and the reset tables) -/

/-- The end of the owner's ACTIVE window at a port reset (R92, R100). -/
def State.endedAt (s : State) (o : Owner) : Option LocalTime :=
  (s.active?.filter (fun x => x.2.owner == o)).map (fun _ => s.tb.lt)

theorem portReset_wc (s : State) (o : Owner) :
    (s.portReset o).wc
      = s.wc.portReset o (s.nextUp?.map (fun x => (x.2.owner, x.2.occ.profile))) (s.endedAt o) := by
  have ended : (match s.active? with
      | some (_, r) => if r.owner == o then some s.tb.lt else none
      | none => none) = s.endedAt o := by
    unfold State.endedAt
    cases s.active? with
    | none => rfl
    | some w =>
      by_cases mine : w.2.owner = o <;> simp [Option.filter, mine]
  rw [← ended]
  rfl

theorem join_map_filter {α : Type} (x : Option (Option α)) (keep : α → Bool) :
    (x.map (fun y => y.filter keep)).join = x.join.filter keep := by
  cases x <;> rfl

/-- The records of the other owner, and no others, stay (R60). -/
theorem record?_portReset (s : State) (o : Owner) (h : Nat) :
    (s.portReset o).record? h = (s.record? h).filter (fun r => !(r.owner == o)) := by
  simp only [State.record?, State.portReset, getElem?_mapTable, join_map_filter]

theorem record?_portReset_some {s : State} {o : Owner} {h : Nat} {r : Record} :
    (s.portReset o).record? h = some r ↔ s.record? h = some r ∧ r.owner ≠ o := by
  rw [record?_portReset, Option.filter_eq_some_iff]
  simp

/-- No window can rise where the timeline has none that is not ACTIVE (R86). -/
theorem riseDue_none_of_nextUp? {s : State} (h : s.nextUp? = none) : s.refreshWindows.riseDue = none := by
  have next : s.refreshWindows.wc.next = none := by simp only [State.refreshWindows, h]
  simp only [State.riseDue, next]

/-- A port reset activates nothing: the ACTIVE window stays, or it was the owner's and the timeline is left empty
(R93). -/
theorem settleWindows_portReset {s v : State} {o : Owner} (rt : v.rt = (s.portReset o).rt)
    (alone : ∀ h r, s.active? = some (h, r) → r.owner = o → s.timeline = [(h, r)]) :
    State.settleWindows s v = v.refreshWindows := by
  have records : ∀ k q, v.record? k = some q ↔ s.record? k = some q ∧ q.owner ≠ o := fun k q => by
    rw [record?_congr (s.portReset o) v rt, record?_portReset_some]
  cases ha : s.active? with
  | none => exact settleWindows_quiet s v (.inl ha)
  | some w =>
    obtain ⟨h, r⟩ := w
    obtain ⟨hr, active⟩ := active?_some s h r ha
    by_cases mine : r.owner = o
    · have nothing : v.nextUp? = none := by
        cases up : v.nextUp? with
        | none => rfl
        | some x =>
          obtain ⟨k, q⟩ := x
          obtain ⟨hq, inTimeline, -⟩ := nextUp?_some v k q up
          obtain ⟨hq', other⟩ := (records k q).mp hq
          have mem := (mem_timeline s k q).mpr ⟨hq', inTimeline⟩
          rw [alone h r ha mine, List.mem_singleton] at mem
          cases mem
          exact absurd mine other
      simp only [State.settleWindows, ha, riseDue_none_of_nextUp? nothing, Option.isSome_some, if_true]
    · exact settleWindows_quiet s v
        (.inr fun none => (active?_eq_none v).mp none h r ((records h r).mpr ⟨hr, mine⟩) active)

theorem PerOwner.get_set_other {α : Type} (x : PerOwner α) (o : Owner) (v : α) :
    (x.set o v).get o.other = x.get o.other := by
  rw [PerOwner.get_set, if_neg (Owner.other_ne o)]

theorem PerOwner.get_set_self {α : Type} (x : PerOwner α) (o : Owner) (v : α) : (x.set o v).get o = v := by
  rw [PerOwner.get_set, if_pos rfl]

/-- The reset tables of WC: profiles, last loaded, the word in flight and the lines (R92, R100). -/
structure WindowController.PortReset (w v : WindowController) (o : Owner) (ended : Option LocalTime) : Prop where
  profiles : v.profiles.get o = Vector.replicate 16 ⟨0, 0, 0, 0⟩
  others : v.profiles.get o.other = w.profiles.get o.other
  lastLoaded : v.lastLoaded = w.lastLoaded.filter (fun x => !(x.1 == o))
  load : ∀ l, w.load = some l → ∃ m, v.load = some m ∧ m.word = l.word ∧ m.start = l.start
    ∧ m.orphaned = (l.orphaned || l.owner == o)
  sequence : v.sequence = w.sequence
  pendingWidening : v.pendingWidening = w.pendingWidening
  runs : ended.isSome = false → v.rxEn = w.rxEn ∧ v.txEn = w.txEn ∧ v.lastEnd = w.lastEnd
  stops : ended.isSome = true → v.rxEn = false ∧ v.txEn = false ∧ v.lastEnd = ended

theorem WindowController.portReset_resets (w : WindowController) (o : Owner) (next : Option (Owner × Nat))
    (ended : Option LocalTime) : w.PortReset (w.portReset o next ended) o ended where
  profiles := PerOwner.get_set_self _ o _
  others := PerOwner.get_set_other _ o _
  lastLoaded := rfl
  load := fun l hl => by
    refine ⟨if l.owner == o then { l with orphaned := true } else l, ?_, ?_⟩
    · simp only [WindowController.portReset, hl, Option.map_some]
    · by_cases mine : l.owner = o <;> simp [mine]
  sequence := rfl
  pendingWidening := rfl
  runs := fun running => by
    cases ended with
    | none => simp [WindowController.portReset]
    | some e => cases running
  stops := fun stopped => by
    cases ended with
    | none => cases stopped
    | some e => simp [WindowController.portReset]

/-- WC's replanning keeps what the reset tables say (R86). -/
theorem WindowController.PortReset.replanned {w v u : WindowController} {o : Owner} {ended : Option LocalTime}
    (a : w.PortReset v o ended) (plan : u = { v with next := u.next, load := u.load })
    (load : u.load.map (fun l => { l with serves := none }) = v.load.map (fun l => { l with serves := none })) :
    w.PortReset u o ended := by
  rw [plan]
  refine ⟨a.profiles, a.others, a.lastLoaded, fun l hl => ?_, a.sequence, a.pendingWidening, a.runs, a.stops⟩
  obtain ⟨m, hm, word, start, orphaned⟩ := a.load l hl
  rw [hm, Option.map_some] at load
  obtain ⟨k, hk, same⟩ := Option.map_eq_some_iff.mp load
  refine ⟨k, hk, (congrArg Load.word same).trans word, (congrArg Load.start same).trans start,
    (congrArg Load.orphaned same).trans orphaned⟩

/-- A step whose effect is a port reset and a rewriting of the ports carries out the reset tables (R16, R37, R60, R85,
R92, R100, R118, R134, R153). -/
theorem settle_portReset {s : State} {o : Owner} (pi : PerPort PortState) (awake : s.sc.state = .awake)
    (alone : ∀ h r, s.active? = some (h, r) → r.owner = o → s.timeline = [(h, r)]) :
    s.portResetTo (State.settle s { s.portReset o with pi := pi }) o
        (s.active?.filter (fun x => x.2.owner == o)).isSome
      ∧ (State.settle s { s.portReset o with pi := pi }).pi = pi := by
  have windows := settleWindows_portReset (v := { s.portReset o with pi := pi }) rfl alone
  have refreshed := refreshWindows_wc { s.portReset o with pi := pi }
  have reset : s.wc.PortReset (s.portReset o).wc o (s.endedAt o) := portReset_wc s o ▸ s.wc.portReset_resets o _ _
  obtain ⟨profiles, others, lastLoaded, load, sequence, widening, runs, stops⟩ :=
    reset.replanned refreshed.1 refreshed.2
  have ended : (s.endedAt o).isSome = (s.active?.filter (fun x => x.2.owner == o)).isSome := Option.isSome_map
  have endedNow : (s.endedAt o).isSome = true → s.endedAt o = some s.tb.lt := fun some => by
    obtain ⟨e, he⟩ := Option.isSome_iff_exists.mp some
    obtain ⟨w, -, now⟩ := Option.map_eq_some_iff.mp he
    rw [he, now]
  have captures : (s.portReset o).tb.captures.get o = (s.tb.captures.get o).emptied := PerOwner.get_set_self _ o _
  obtain ⟨sc, falls, moves⟩ := settleSleep_sc s (State.refreshWindows { s.portReset o with pi := pi })
  have stays : (State.settleSleep s (State.refreshWindows { s.portReset o with pi := pi })).sc.state = s.sc.state := by
    rcases moves with same | ⟨entering, -⟩
    · exact same
    · exact absurd (awake.symm.trans entering) SleepState.noConfusion
  unfold State.settle
  rw [windows]
  refine ⟨⟨rfl, PerOwner.get_set_other _ o _, congrArg Capture.present captures, congrArg Capture.overrun captures,
    fun i => ?_, PerOwner.get_set_self _ o _, PerOwner.get_set_other _ o _, fun h => record?_portReset s o h,
    PerOwner.get_set_self _ o _, PerOwner.get_set_other _ o _, fun i => ?_, PerOwner.get_set_self _ o _,
    PerOwner.get_set_other _ o _, PerOwner.get_set_self _ o _, PerOwner.get_set_other _ o _, rfl, rfl, rfl, rfl, profiles,
    others, lastLoaded, load, sequence, widening, ended ▸ runs, fun stopped => ?_, ?_, falls⟩, rfl⟩
  · show (s.portReset o).cell? i = _
    simp only [State.cell?, State.portReset, getElem?_mapTable, join_map_filter]
  · show (s.portReset o).exchange? i = _
    simp only [State.exchange?, State.portReset, getElem?_mapTable, join_map_filter]
  · rw [← ended] at stopped
    rw [← endedNow stopped]
    exact stops stopped
  · rw [sc, stays]
    rfl

/-! ### RESET PORT and DISABLE PORT (R187, R188) -/

/-- RESET PORT (R188). -/
theorem execResetPort_executes {s : State} {o : Owner} {n : Nat}
    (alone : ∀ h r, s.active? = some (h, r) → r.owner = o → s.timeline = [(h, r)])
    (hx : s.executes o.port n (.resetPort o.port)) :
    ∃ t, exec (.resetPort o.port) s = .next t
      ∧ s.portResetTo t o (s.active?.filter (fun x => x.2.owner == o)).isSome
      ∧ t.port o.port = { (s.port o.port).emptied with slot := .done n .ok [], buffer := none, vote := some .hold }
      ∧ t.port .policy = (s.port .policy).push ⟨.portReset, o.code, .none, 0, 0, s.tb.lt⟩
      ∧ t.port o.other.port = s.port o.other.port := by
  let emptied := { (s.port o.port).emptied with vote := some .hold }
  let u := ((s.portReset o).setPort o.port emptied).postPort .policy .portReset o.code .none 0 0
  have apart : o.port ≠ .policy := Owner.port_ne_policy o
  have own : u.port o.port = emptied := by
    rw [port_postPort, if_neg apart, port_setPort, if_pos rfl]
  have policy : u.port .policy = (s.port .policy).push ⟨.portReset, o.code, .none, 0, 0, s.tb.lt⟩ := by
    rw [port_postPort, if_pos rfl, port_setPort, if_neg apart.symm]
    rfl
  have other : u.port o.other.port = s.port o.other.port := by
    rw [port_postPort, if_neg (Owner.port_ne_policy o.other), port_setPort,
      if_neg fun same => Owner.other_ne o (Owner.port_injective same)]
    rfl
  let v := u.setPort o.port ((u.port o.port).answered n .ok [])
  obtain ⟨reset, pi⟩ := settle_portReset v.pi (executes_awake hx) alone
  have ports : ∀ p, (State.settle s v).port p = v.port p := fun p => congrArg (PerPort.get · p) pi
  refine ⟨State.settle s v, ?_, reset, ?_, ?_, ?_⟩
  · rw [exec_resetPort]
    exact planCommand_accepts hx (withOwnerReply_port o s _) (own ▸ hx.2)
  · rw [ports, port_setPort, if_pos rfl, own]
    rfl
  · rw [ports, port_setPort, if_neg apart.symm, policy]
  · rw [ports, port_setPort, if_neg fun same => Owner.other_ne o (Owner.port_injective same), other]

theorem ownerOfByte_code (o : Owner) : ownerOfByte o.code = some o := by cases o <;> rfl

theorem refreshWindows_setPort (s : State) (p : Port) (x : PortState) :
    (s.setPort p x).refreshWindows.wc = s.refreshWindows.wc := rfl

/-- DISABLE PORT on a port already disabled changes nothing (R187). -/
theorem execDisablePort_disabled {s : State} {o : Owner} {n : Nat}
    (hx : s.executes .policy n (.disablePort .policy o.code)) (disabled : (s.port o.port).enabled = false) :
    ∃ t, exec (.disablePort .policy o.code) s = .next t
      ∧ t.port .policy = (s.port .policy).answered n .ok [0] ∧ s.replannedExcept t [.port .policy]
      ∧ (s.refreshWindows = s → t.wc = s.wc) := by
  have body : s.disablePort o.code = (s, .ok, [0]) := by
    simp only [State.disablePort, ownerOfByte_code, disabled, Bool.false_eq_true, if_false]
    rfl
  let v := s.setPort .policy ((s.port .policy).answered n .ok [0])
  have quiet := quiet_of_rt (s := s) (u := v) rfl
  refine ⟨State.settle s v, ?_, ?_, (State.Replans.setPort s .policy _).settled quiet, fun planned => ?_⟩
  · rw [exec_disablePort]
    exact planCommand_accepts hx (congrArg some body) hx.2
  · rw [(settle_records (s := s) (u := v) rfl).1, port_setPort, if_pos rfl]
  · show (State.settleWindows s v).wc = s.wc
    rw [settleWindows_quiet s v quiet, refreshWindows_setPort, planned]

/-- DISABLE PORT on an enabled port (R187). -/
theorem execDisablePort_enabled {s : State} {o : Owner} {n : Nat}
    (alone : ∀ h r, s.active? = some (h, r) → r.owner = o → s.timeline = [(h, r)])
    (hx : s.executes .policy n (.disablePort .policy o.code)) (enabled : (s.port o.port).enabled = true) :
    ∃ t, exec (.disablePort .policy o.code) s = .next t
      ∧ s.portResetTo t o (s.active?.filter (fun x => x.2.owner == o)).isSome
      ∧ t.port o.port = (s.port o.port).disable
      ∧ t.port .policy = (s.port .policy).answered n .ok [1]
      ∧ t.port o.other.port = s.port o.other.port := by
  let u := (s.portReset o).setPort o.port (s.port o.port).disable
  have apart : o.port ≠ .policy := Owner.port_ne_policy o
  have body : s.disablePort o.code = (u, .ok, [1]) := by
    simp only [State.disablePort, ownerOfByte_code, enabled, if_true]
    rfl
  have policy : u.port .policy = s.port .policy := by
    rw [port_setPort, if_neg apart.symm]
    rfl
  have other : u.port o.other.port = s.port o.other.port := by
    rw [port_setPort, if_neg fun same => Owner.other_ne o (Owner.port_injective same)]
    rfl
  let v := u.setPort .policy ((u.port .policy).answered n .ok [1])
  obtain ⟨reset, pi⟩ := settle_portReset v.pi (executes_awake hx) alone
  have ports : ∀ p, (State.settle s v).port p = v.port p := fun p => congrArg (PerPort.get · p) pi
  refine ⟨State.settle s v, ?_, reset, ?_, ?_, ?_⟩
  · rw [exec_disablePort]
    exact planCommand_accepts hx (congrArg some body) (policy ▸ hx.2)
  · rw [ports, port_setPort, if_neg apart, port_setPort, if_pos rfl]
  · rw [ports, port_setPort, if_pos rfl, policy]
  · rw [ports, port_setPort, if_neg (Owner.port_ne_policy o.other), other]

/-- Settles O10: RESET PORT, then DISABLE PORT by whether its port is enabled. -/
theorem portResetsReturnTheOwner : Obligations.PortResetsReturnTheOwner := fun _ _ _ alone =>
  ⟨execResetPort_executes alone, execDisablePort_disabled, execDisablePort_enabled alone⟩

end Sys2Proof.Machine
end

section
namespace Sys2Proof.Machine

/-! ### The rows of the pins -/

section
variable {s t : State}

theorem closed_keeps (x : PortState) (tx : Transaction) (bits : Nat) : x.Keeps (x.closed tx bits) := by
  rw [closed_eq]
  exact ⟨id, id, id⟩

theorem wakeFor_pi (s : State) (p : Port) : (s.wakeFor p).pi = s.pi := by
  unfold State.wakeFor
  split
  · rfl
  · rfl
  · split <;> rfl
  · rfl

/-- Taking a frame keeps an enabled port enabled, and its queue (R179). -/
theorem takeFrame_keeps {p : Port} (number : Nat) (params : List Byte) (enabled : (s.port p).enabled = true) :
    s.KeepsPorts (s.takeFrame p number params) := by
  by_cases pending : ∃ m, (s.port p).slot = .pending m
  · obtain ⟨m, slot⟩ := pending
    rw [takeFrame_collides slot]
    exact .setPort_enabled s p _ rfl rfl enabled
  · have written : s.KeepsPorts (s.setPort p ((s.port p).holding number params s.sc.state)) :=
      .setPort_enabled s p _ rfl rfl enabled
    have held := written.trans (.of_pi (wakeFor_pi _ p))
    rw [takeFrame_taken (not_exists.mp pending)]
    split
    · exact held.trans (.checkFrame _ p)
    · exact held

theorem closeTransaction_keeps (p : Port) (tx : Transaction) (bits : List Bool) :
    s.KeepsPorts (s.closeTransaction p tx bits) := by
  cases judged : (tx.judged && (s.port p).enabled && s.resetN) with
  | false =>
    rw [closeTransaction_unjudged judged]
    exact .setPort s p _ ⟨id, id, id⟩ fun _ => id
  | true =>
    have enabled : (s.port p).enabled = true := by
      simp only [Bool.and_eq_true] at judged
      exact judged.1.2
    have closed : s.KeepsPorts (s.setPort p ((s.port p).closed tx bits.length)) :=
      .setPort s p _ (closed_keeps _ _ _) fun _ _ => by rw [closed_eq]; exact enabled
    cases hb : judge bits with
    | nothing =>
      rw [closeTransaction_nothing judged hb]
      exact .setPort s p _ ⟨id, id, id⟩ fun _ => id
    | poll => rw [closeTransaction_poll judged hb]; exact closed
    | malformed =>
      rw [closeTransaction_malformed judged hb]
      refine .setPort_enabled s p _ ?_ ?_ ?_ <;> rw [closed_eq]
      exact enabled
    | frame number params =>
      rw [closeTransaction_frame judged hb]
      exact closed.trans (takeFrame_keeps number params (by rw [port_setPort, if_pos rfl, closed_eq]; exact enabled))

theorem execPowerOnReset_keeps (he : execPowerOnReset s = .next t) : s.KeepsPorts t := by
  cases he
  exact ⟨fun _ p => by cases p <;> exact ⟨Nat.zero_le _, Nat.zero_le _⟩, fun _ => reset_portsSound⟩

theorem execChipReset_keeps (he : execChipReset s = .next t) : s.KeepsPorts t := by
  unfold execChipReset at he
  split at he <;> cases he
  · exact (chipReset_serves s .policy).keeps.trans (.of_pi rfl)
  · exact .refl s

theorem execCsNFall_keeps {p : Port} (he : execCsNFall p s = .next t) : s.KeepsPorts t := by
  unfold execCsNFall at he
  split at he <;> cases he
  · rw [openTransaction_eq]
    exact .setPort s p _ ⟨id, id, id⟩ fun _ => id
  · exact .refl s

theorem execCsNRise_keeps {p : Port} {bits : List Bool} (he : execCsNRise p bits s = .next t) : s.KeepsPorts t := by
  unfold execCsNRise at he
  split at he <;> cases he
  · exact .refl s
  · exact (closeTransaction_keeps p _ bits).trans (.settle _ _)

theorem takeStrobe_posts (s : State) (o : Owner) : s.Posts (s.takeStrobe o) := by
  unfold State.takeStrobe
  dsimp only
  split
  · exact .of_pi rfl
  · exact State.Posts.trans (.of_pi rfl) (.post _ o _ _ _ _ _)

theorem execStrobe_keeps {o : Owner} (he : execStrobe o s = .next t) : s.KeepsPorts t := by
  unfold execStrobe at he
  split at he <;> cases he
  · exact .of_posts (takeStrobe_posts s o)
  · exact .refl s

end

/-! ### The rows of the part's own instants -/

section
variable {s t : State}

theorem event_keeps {result : Option State} (effect : ∀ u, result = some u → s.KeepsPorts u)
    (he : s.event result = .next t) : s.KeepsPorts t := by
  rcases event_cases he with ⟨-, rfl⟩ | ⟨u, hu, rfl⟩
  · exact .refl t
  · exact (effect u hu).trans (.settle _ _)

theorem cascade_keeps {due : Bool} {result : Option State} (effect : ∀ u, result = some u → s.Posts u)
    (he : s.cascade due result = .next t) : s.KeepsPorts t := by
  rcases cascade_cases he with ⟨-, rfl⟩ | ⟨u, -, hu, rfl⟩
  · exact .refl t
  · exact (State.KeepsPorts.of_posts (effect u hu)).trans (.settle _ _)

theorem failHandover_posts {w : Work} {o : Owner} {entry : Nat} {u : State} (h : w.failHandover o entry = some u) :
    w.st.Posts u := by
  unfold Work.failHandover at h
  split at h
  · cases h
    exact .refl _
  · split at h
    · obtain ⟨v, undone, rfl⟩ := Option.map_eq_some_iff.mp h
      exact (undoHandover_posts w.st o undone).trans (.post _ _ _ _ _ _ _)
    · cases h
      exact .refl _

theorem expireAnchor_posts {entry : Nat} {c : Cell} {u : State} (h : s.expireAnchor entry c = some u) : s.Posts u := by
  unfold State.expireAnchor at h
  dsimp only at h
  split at h
  · cases h
  · split at h
    · cases h
    · rename_i w hw
      have cleared : s.Posts (s.setCell entry (some { c with anchor := none })) := .of_pi rfl
      exact (cleared.trans (.post _ _ _ _ _ _ _)).trans ((State.Posts.run hw).trans (failHandover_posts h))

theorem execAnchorExpiry_keeps {index : Nat} (he : execAnchorExpiry index s = .next t) : s.KeepsPorts t := by
  unfold execAnchorExpiry at he
  split at he
  · cases he
    exact .refl s
  · exact cascade_keeps (fun u => expireAnchor_posts) he

theorem State.Replans.posts {u : State} {parts : List Block} (a : s.Replans u parts)
    (ports : ∀ p, Block.port p ∉ parts) : s.Posts u := fun p => by
  rw [a.port p (ports p)]
  exact PortState.Grew.refl _

theorem resolveWaiting_posts {o : Owner} {ho : Handover} {u : State} (h : s.resolveWaiting o ho = some u) :
    s.Posts u := by
  obtain ⟨w, run, rfl⟩ := Option.map_eq_some_iff.mp h
  exact ((State.Posts.refl s).then_reresolve _ _).trans (.run run)

theorem takeSwitch_posts {o : Owner} {ho : Handover} {u : State} (h : s.takeSwitch o ho = some u) : s.Posts u := by
  obtain ⟨v, resolved, rfl⟩ := Option.map_eq_some_iff.mp h
  exact (((switchOver_designates s o ho).frame.posts (by simp)).trans (resolveWaiting_posts resolved)).trans
    (.post _ _ _ _ _ _ _)

theorem takeRevert_posts {o : Owner} {ho : Handover} {u : State} (h : s.takeRevert o ho = some u) : s.Posts u := by
  obtain ⟨v, resolved, rfl⟩ := Option.map_eq_some_iff.mp h
  exact (((switchBack_designates s o ho).frame.posts (by simp)).trans (resolveWaiting_posts resolved)).trans
    (.post _ _ _ _ _ _ _)

theorem execHandoverSwitch_keeps {o : Owner} (he : execHandoverSwitch o s = .next t) : s.KeepsPorts t := by
  unfold execHandoverSwitch at he
  split at he
  · cases he
    exact .refl s
  · exact cascade_keeps (fun u => takeSwitch_posts) he

theorem execRevertSwitch_keeps {o : Owner} (he : execRevertSwitch o s = .next t) : s.KeepsPorts t := by
  unfold execRevertSwitch at he
  split at he
  · cases he
    exact .refl s
  · exact cascade_keeps (fun u => takeRevert_posts) he

theorem execRevertClose_keeps {o : Owner} (he : execRevertClose o s = .next t) : s.KeepsPorts t := by
  refine event_keeps (fun u hu => ?_) he
  obtain ⟨v, -, rfl⟩ := Option.map_eq_some_iff.mp hu
  have closed : s.Posts ((s.setCellState v.retiring .neighbour).setRevert o none) :=
    (State.Posts.updateCell s _ _).trans (.of_pi rfl)
  exact .of_posts (closed.trans (.post _ _ _ _ _ _ _))

end

/-! ### The rows of the windows -/

section
variable {s t : State}

theorem execWindowSoon_keeps {h : Nat} (he : execWindowSoon h s = .next t) : s.KeepsPorts t := by
  refine event_keeps (fun u hu => ?_) he
  obtain ⟨r, -, rfl⟩ := Option.map_eq_some_iff.mp hu
  exact .of_posts (.of_planned (.postNotice s h r))

theorem execLoadBegin_keeps (he : execLoadBegin s = .next t) : s.KeepsPorts t := by
  refine event_keeps (fun u hu => ?_) he
  obtain ⟨w, -, rfl⟩ := Option.map_eq_some_iff.mp hu
  exact .of_pi rfl

theorem finishLoad_pi (s : State) (l : Load) (at' : LocalTime) : (s.finishLoad l at').pi = s.pi := by
  unfold State.finishLoad
  dsimp only
  split
  · rfl
  · split
    · rfl
    · split
      · split
        · rw [updateOcc_pi]
          split <;> rfl
        · split <;> rfl
      · rfl

theorem execLoadComplete_keeps (he : execLoadComplete s = .next t) : s.KeepsPorts t := by
  refine event_keeps (fun u hu => ?_) he
  obtain ⟨l, -, rfl⟩ := Option.map_eq_some_iff.mp hu
  exact .of_pi (finishLoad_pi s l _)

theorem execActivation_keeps (he : execActivation s = .next t) : s.KeepsPorts t := by
  refine event_keeps (fun u hu => ?_) he
  obtain ⟨nx, -, rfl⟩ := Option.map_eq_some_iff.mp hu
  exact .of_posts (.activate s nx)

theorem takeEnd_posts {h : Nat} {r : Record} {u : State} (hu : s.takeEnd h r = some u) : s.Posts u := by
  obtain ⟨w, run, rfl⟩ := Option.map_eq_some_iff.mp hu
  have ended := ((Planned.endPart s h r.occ.endLt).trans (.postWindowEnd _ h .done false false false)).trans
    (.refreshWindows _)
  exact (State.Posts.of_planned ended).trans (.run run)

theorem execPartEnd_keeps (he : execPartEnd s = .next t) : s.KeepsPorts t := by
  unfold execPartEnd at he
  split at he
  · cases he
    exact .refl s
  · exact cascade_keeps (fun u => takeEnd_posts) he

theorem takeCutTime_posts {h : Nat} {r : Record} {c : LocalTime} {u : State} (hu : s.takeCutTime h r c = some u) :
    s.Posts u := by
  obtain ⟨w, run, rfl⟩ := Option.map_eq_some_iff.mp hu
  exact (State.Posts.of_planned ((Planned.takeCut s h c).trans (.refreshWindows _))).trans (.run run)

theorem execCutTime_keeps (he : execCutTime s = .next t) : s.KeepsPorts t := by
  unfold execCutTime at he
  split at he
  · cases he
    exact .refl s
  · exact cascade_keeps (fun u => takeCutTime_posts) he

end

/-! ### The rows of the sleep cycle and the clocks -/

section
variable {s t : State}

theorem execSleepEntry_keeps (he : execSleepEntry s = .next t) : s.KeepsPorts t := by
  refine event_keeps (fun u hu => ?_) he
  split at hu <;> cases hu
  exact .of_pi rfl

theorem settleLoad_pi (s : State) : s.settleLoad.pi = s.pi := by
  unfold State.settleLoad
  split
  · rfl
  · split
    · rfl
    · exact finishLoad_pi s _ _

theorem entryEdge_pi (s : State) : s.entryEdge.pi = s.pi := by
  unfold State.entryEdge
  split
  · rfl
  · exact settleLoad_pi s

theorem execEntryEdge_keeps (he : execEntryEdge s = .next t) : s.KeepsPorts t := by
  refine event_keeps (fun u hu => ?_) he
  split at hu <;> cases hu
  exact .of_pi (entryEdge_pi s)

theorem execOscillatorWarmUp_keeps (he : execOscillatorWarmUp s = .next t) : s.KeepsPorts t := by
  refine event_keeps (fun u hu => ?_) he
  split at hu
  · cases hu
  · dsimp only at hu
    split at hu <;> cases hu
    exact .of_pi rfl

theorem wake_posts (s : State) (hand : SleepHand) (count : Nat) (timer : Bool) (port : Nat) :
    s.Posts (s.wake hand count timer port) := by
  have calibrated : ∀ u : State, s.Posts u → s.Posts u.autoCalibrate := fun u h => by
    refine h.trans (.of_pi ?_)
    unfold State.autoCalibrate
    dsimp only
    split <;> rfl
  unfold State.wake
  refine calibrated _ (State.Posts.trans ?_ (.postPort _ _ _ _ _ _ _))
  exact .of_pi rfl

/-- A wake posts WOKE, and the frames held across the sleep are checked (R162, R179). -/
theorem wake_keeps (s : State) (hand : SleepHand) (count : Nat) (timer : Bool) (port : Nat) :
    s.KeepsPorts (s.wake hand count timer port).checkHeld :=
  (State.KeepsPorts.of_posts (wake_posts s hand count timer port)).trans
    (((State.KeepsPorts.checkFrame _ .subA).trans (.checkFrame _ .subB)).trans (.checkFrame _ .policy))

theorem execTimerWake_keeps (he : execTimerWake s = .next t) : s.KeepsPorts t := by
  refine event_keeps (fun u hu => ?_) he
  split at hu
  · split at hu <;> cases hu
    exact wake_keeps s _ _ _ _
  · cases hu

theorem execCommandWake_keeps (he : execCommandWake s = .next t) : s.KeepsPorts t := by
  refine event_keeps (fun u hu => ?_) he
  split at hu
  · split at hu <;> cases hu
    exact wake_keeps s _ _ _ _
  · cases hu

theorem execGateOpen_keeps (he : execGateOpen s = .next t) : s.KeepsPorts t := by
  refine event_keeps (fun u hu => ?_) he
  split at hu
  · cases hu
  · split at hu <;> cases hu
    exact .of_pi rfl

theorem closeGate_posts (s : State) (run : CalRun) : s.Posts (s.closeGate run) := by
  unfold State.closeGate
  dsimp only
  split <;> exact State.Posts.trans (.of_pi rfl) (.postPort _ _ _ _ _ _ _)

theorem execGateClose_keeps (he : execGateClose s = .next t) : s.KeepsPorts t := by
  refine event_keeps (fun u hu => ?_) he
  split at hu
  · cases hu
  · split at hu <;> cases hu
    exact .of_posts (closeGate_posts s _)

theorem execRefInTick_keeps (he : execRefInTick s = .next t) : s.KeepsPorts t := by
  unfold execRefInTick at he
  split at he <;> cases he
  · exact .of_pi rfl
  · exact .refl s

theorem execSlkInEdge_keeps (he : execSlkInEdge s = .next t) : s.KeepsPorts t := by
  cases he
  exact .of_pi rfl

end

/-! ### Every row -/

theorem exec_keeps {i : Instr} {s t : State} (he : exec i s = .next t) : s.KeepsPorts t := by
  cases hi : i.command? with
  | some c => exact exec_command_keeps (p := c.1) (m := c.2) hi he
  | none =>
    cases i with
    | powerOnReset => exact execPowerOnReset_keeps he
    | chipReset => exact execChipReset_keeps he
    | resetNRelease =>
      cases he
      exact .of_pi rfl
    | csNFall p => exact execCsNFall_keeps he
    | csNRise p bits => exact execCsNRise_keeps he
    | strobe o => exact execStrobe_keeps he
    | anchorExpiry index => exact execAnchorExpiry_keeps he
    | handoverSwitch o => exact execHandoverSwitch_keeps he
    | revertSwitch o => exact execRevertSwitch_keeps he
    | revertClose o => exact execRevertClose_keeps he
    | windowSoon h => exact execWindowSoon_keeps he
    | loadBegin => exact execLoadBegin_keeps he
    | loadComplete => exact execLoadComplete_keeps he
    | activation => exact execActivation_keeps he
    | partEnd => exact execPartEnd_keeps he
    | cutTime => exact execCutTime_keeps he
    | sleepEntry => exact execSleepEntry_keeps he
    | entryEdge => exact execEntryEdge_keeps he
    | oscillatorWarmUp => exact execOscillatorWarmUp_keeps he
    | timerWake => exact execTimerWake_keeps he
    | commandWake => exact execCommandWake_keeps he
    | gateOpen => exact execGateOpen_keeps he
    | gateClose => exact execGateClose_keeps he
    | refInTick => exact execRefInTick_keeps he
    | slkInEdge => exact execSlkInEdge_keeps he
    | _ => cases hi

theorem step_keeps {s t : State} (he : step s = .next t) : s.KeepsPorts t := by
  cases hp : s.pending with
  | nil =>
    rw [step_nil s hp] at he
    cases he
    exact .refl s
  | cons i rest =>
    rw [step_cons s i rest hp] at he
    have taken : s.KeepsPorts { s with pending := rest } := .of_pi rfl
    exact taken.trans (exec_keeps he)

/-- Settles O57: a row posts events, or empties a queue or takes records from it. -/
theorem stepKeepsQueuesBounded : Obligations.StepKeepsQueuesBounded := fun _ _ sound he => (step_keeps he).queues sound

/-- Settles O59: no row disables POLICY, and none gives a disabled port a slot, a record, a frame or a vote. -/
theorem stepKeepsDisabledPortsOut : Obligations.StepKeepsDisabledPortsOut := fun _ _ sound he =>
  (step_keeps he).ports sound

end Sys2Proof.Machine
end
